-- ==== Sys2Proof/Word.lean ====
section
/-! DEFINITION. The word type of the machine. Every datum of the block is a byte or a bit (`00_scope.md` R8, R10). -/

namespace Sys2Proof

/-- A byte, `u8`: 8 bits, bit 0 the least significant, arithmetic modulo 256 and unsigned (`00_scope.md` R8). -/
abbrev Byte := BitVec 8

end Sys2Proof
end

