-- ==== Sys2Proof/Config.lean ====
section
/-! DEFINITION. The configuration record (`00_scope.md` R7) and the values the spec leaves open. -/

namespace Sys2Proof

/-- `VARIANT` (`00_scope.md` R3, R7; OPEN, 92 D5): one channel, or eight. -/
inductive Variant where
  | single
  | multi8
  deriving DecidableEq, Repr, Inhabited

/-- The configuration record of `00_scope.md` R7. It is fixed for the life of a machine. Every number the spec marks
`[from general knowledge, not in source]` is a field (93 section 3), so that a statement over an arbitrary record does
not rest on it. -/
structure ConfigRecord where
  /-- `VARIANT` (92 D5). -/
  variant : Variant
  /-- `ADDR_W` (92 D6). -/
  addrW : Nat
  /-- `POLL_MAX`, the number of status reads of one poll (92 D7). -/
  pollMax : Nat
  /-- `T_RESET_CLASS` in microseconds; timing only, no rule reads it (92 D8; log 16). -/
  tResetClass : Nat
  /-- `T_BIT_CLASS`, its two ends in microseconds; timing only, no rule reads it (92 D8; log 16). -/
  tBitClass : Nat × Nat
  /-- `CMD_DRST`, device reset (`30_encoding.md` R88). -/
  cmdDRST : Byte
  /-- `CMD_SRP`, set read pointer (R88). -/
  cmdSRP : Byte
  /-- `CMD_WCFG`, write configuration (R88). -/
  cmdWCFG : Byte
  /-- `CMD_CHSL`, channel select (R88). -/
  cmdCHSL : Byte
  /-- `CMD_1WRS`, 1-Wire reset (R88). -/
  cmd1WRS : Byte
  /-- `CMD_1WWB`, 1-Wire write byte (R88). -/
  cmd1WWB : Byte
  /-- `CMD_1WRB`, 1-Wire read byte (R88). -/
  cmd1WRB : Byte
  /-- `CMD_1WT`, 1-Wire triplet (R88). -/
  cmd1WT : Byte
  /-- `CMD_1WSB`, 1-Wire single bit (R88). -/
  cmd1WSB : Byte
  /-- `PTR_STATUS` (`30_encoding.md` R89). -/
  ptrStatus : Byte
  /-- `PTR_DATA` (R89). -/
  ptrData : Byte
  /-- `PTR_CHANNEL` (R89). -/
  ptrChannel : Byte
  /-- `PTR_CONFIG` (R89). -/
  ptrConfig : Byte
  /-- `ST_1WB`, the busy flag's position (`10_state.md` R33). -/
  st1WB : Fin 8
  /-- `ST_PPD`, presence pulse detected (R33). -/
  stPPD : Fin 8
  /-- `ST_SD`, short detected (R33). -/
  stSD : Fin 8
  /-- `ST_LL`, logic level (R33). -/
  stLL : Fin 8
  /-- `ST_RST`, device has been reset (R33). -/
  stRST : Fin 8
  /-- `ST_SBR`, the id bit of a triplet (R33). -/
  stSBR : Fin 8
  /-- `ST_TSB`, the complement bit of a triplet (R33). -/
  stTSB : Fin 8
  /-- `ST_DIR`, direction taken (R33). -/
  stDIR : Fin 8
  /-- `CFG_INIT`, the configuration as read back (92 D13). -/
  cfgInit : Byte
  /-- `CFG_INIT_W`, the configuration as written (92 D13). -/
  cfgInitW : Byte
  /-- `INIT_MASK` (92 D17). -/
  initMask : Byte
  /-- `INIT_VALUE` (92 D17). -/
  initValue : Byte
  /-- `CHCODE[c]` (`30_encoding.md` R90). -/
  chcode : Vector Byte 8
  /-- `CHECHO[c]` (R90). -/
  checho : Vector Byte 8
  /-- `CRC_POLY`, reflected (92 D24). -/
  crcPoly : Byte
  /-- `ROM_MATCH` (`30_encoding.md` R92). -/
  romMatch : Byte
  /-- `ROM_SEARCH` (R92). -/
  romSearch : Byte
  /-- The model's own: how many passes one `SEARCH` may make before the model calls it a hang (`42_rom_search.md`
  R161; log 7). -/
  searchFuel : Nat
  deriving DecidableEq, Repr

/-- The variant of the machine that `State.reset` describes: OPEN (92 D5), so uninterpreted (log 1). -/
opaque Config.openVariant : Variant

/-- One less than the `POLL_MAX` of the machine that `State.reset` describes: OPEN, a natural at least 1 (92 D7), so
uninterpreted (log 1). -/
opaque Config.openPollMaxPred : Nat

/-- Free value: does the environment acknowledge the transport operation that draws free value `n`
(`20_memory.md` R41, R42, 93 U10; log 2)? -/
opaque Config.freeAck : Nat → Bool

/-- Free value: the byte a transport read returns (93 U10; log 2). -/
opaque Config.freeByte : Nat → Byte

/-- Free value: `CH` where the spec calls it unspecified (`40_bridge_controller.md` R109, R113, 93 U2; log 8). -/
opaque Config.freeCh : Nat → BitVec 3

/-- Free value: `CFG` where the spec calls it unspecified (`40_bridge_controller.md` R109, 93 U2; log 8). -/
opaque Config.freeCfg : Nat → Byte

end Sys2Proof
end

