-- ==== Sys2Proof/Machine/Defaults.lean ====
section
/-! DEFINITION. The default values of the configuration record and what is derived from it (`00_scope.md` R7). -/

namespace Sys2Proof

/-- `NCH`: 1 if `SINGLE`, 8 if `MULTI8` (`00_scope.md` R7). -/
def nch (c : ConfigRecord) : Nat :=
  match c.variant with
  | .single => 1
  | .multi8 => 8

/-- The record with the spec's defaults (`00_scope.md` R7, `30_encoding.md` R88 to R92, `10_state.md` R33); `VARIANT`
and `POLL_MAX` have no default and are arguments. PRESUMED: every number here but `romMatch` and `romSearch` is marked
`[from general knowledge, not in source]` or is the spec's decision (log 17). DESIGN CHOICE: `searchFuel` (log 7). -/
def defaultConf (variant : Variant) (pollMax : Nat) : ConfigRecord where
  variant := variant
  addrW := 7
  pollMax := pollMax
  tResetClass := 1100
  tBitClass := (60, 75)
  cmdDRST := 0xF0
  cmdSRP := 0xE1
  cmdWCFG := 0xD2
  cmdCHSL := 0xC3
  cmd1WRS := 0xB4
  cmd1WWB := 0xA5
  cmd1WRB := 0x96
  cmd1WT := 0x78
  cmd1WSB := 0x87
  ptrStatus := 0xF0
  ptrData := 0xE1
  ptrChannel := 0xD2
  ptrConfig := 0xC3
  st1WB := 0
  stPPD := 1
  stSD := 2
  stLL := 3
  stRST := 4
  stSBR := 5
  stTSB := 6
  stDIR := 7
  cfgInit := 0x01
  cfgInitW := 0xE1
  initMask := 0xF7
  initValue := 0x10
  chcode := #v[0xF0, 0xE1, 0xD2, 0xC3, 0xB4, 0xA5, 0x96, 0x87]
  checho := #v[0xB8, 0xB1, 0xAA, 0xA3, 0x9C, 0x95, 0x8E, 0x87]
  crcPoly := 0x8C
  romMatch := 0x55
  romSearch := 0xF0
  searchFuel := 2 ^ 64

end Sys2Proof
end

