-- ==== Sys2Proof/Syntax.lean ====
section
/-! DEFINITION. The instructions: one constructor for each row of `spec/opcode_table.json`. -/

namespace Sys2Proof

/-- A 64-bit ROM code: 8 bytes, byte 0 the family code, bytes 1 to 6 the serial, byte 7 the checksum
(`00_scope.md` R9). It is never treated as one number (`20_memory.md` R50). -/
abbrev Identifier := Vector Byte 8

/-- The three formats of encoded things (`30_encoding.md` R80). -/
inductive Format where
  /-- A host operation, a packet of bytes on the command port (R81). -/
  | H
  /-- A bridge command, one or two bytes the block writes on the transport (R86). -/
  | B
  /-- A 1-Wire ROM command, the data byte of a bridge byte-write and those after it (R92). -/
  | W
  deriving DecidableEq, Repr

/-- What the machine runs. Format H rows are host operations; format B and W rows are the fragments of them that the
block emits (`30_encoding.md` R80; log 9). Operand bytes are kept as they stand in the encoding; which values are legal
is `WellFormed`'s. -/
inductive Instr where
  /-- `INIT addr, ch` (`40_bridge_controller.md` R104). -/
  | init (addr ch : Byte)
  /-- `SELCH ch` (R110). -/
  | selch (ch : Byte)
  /-- `OWRESET` (`41_onewire_bus.md` R131). -/
  | owreset
  /-- `OWWRITE b` (R133). -/
  | owwrite (b : Byte)
  /-- `OWREAD` (R135). -/
  | owread
  /-- `MATCHROM id` (R137). -/
  | matchrom (id : Identifier)
  /-- `SEARCH` (`42_rom_search.md` R150). -/
  | search
  /-- `CRC8 d[0], .., d[n-1]` (`43_checksum.md` R172). -/
  | crc8 (data : List Byte)
  /-- `DRST`, device reset (`40_bridge_controller.md` R115). -/
  | drst
  /-- `SRP`, set read pointer (R116). -/
  | srp (pointer : Byte)
  /-- `WCFG`, write configuration (R117). -/
  | wcfg (config : Byte)
  /-- `CHSL`, channel select (R118). -/
  | chsl (code : Byte)
  /-- `1WRS`, 1-Wire reset (R119). -/
  | w1rs
  /-- `1WWB`, 1-Wire write byte (R120). -/
  | w1wb (data : Byte)
  /-- `1WRB`, 1-Wire read byte (R121). -/
  | w1rb
  /-- `1WT`, 1-Wire triplet (R122). -/
  | w1t (direction : Byte)
  /-- `1WSB`, 1-Wire single bit (R123). -/
  | w1sb (bit : Byte)
  /-- `ROM_MATCH`, the Match-ROM command byte and the 8 identifier bytes (`41_onewire_bus.md` R136). -/
  | romMatch (id : Identifier)
  /-- `ROM_SEARCH`, the Search-ROM command byte (`42_rom_search.md` R152). -/
  | romSearch
  deriving DecidableEq, Repr

/-- The rows of the opcode table, by name: what the first byte decides. -/
inductive Op where
  | init | selch | owreset | owwrite | owread | matchrom | search | crc8
  | drst | srp | wcfg | chsl | w1rs | w1wb | w1rb | w1t | w1sb
  | romMatch | romSearch
  deriving DecidableEq, Repr

end Sys2Proof
end

