-- ==== Sys2Proof/Machine/State.lean ====
section
/-! DEFINITION. The state of the machine, as plain data: the block's registers (`10_state.md` R20), the two parameters
of the spec's step relation that the model holds beside them (the configuration record, log 1, and the environment,
log 2), and the model's own fields (log 6, log 8). -/

namespace Sys2Proof.Machine

/-- `MODE` (`10_state.md` R24). -/
inductive Mode where
  /-- No successful `INIT` since reset, or a failed `INIT`, or a failed channel-select sequence. -/
  | uninit
  /-- `INIT` succeeded and nothing since left the bridge in an undefined command state. -/
  | ready
  /-- A poll timed out or a transport operation failed inside a primitive. -/
  | dirty
  deriving DecidableEq, Repr

/-- The errors a host operation can end in (`00_scope.md` R11, `60_exceptions.md` R181 to R184). -/
inductive Err where
  /-- `TransportError`, code 0x01 (R181). -/
  | transport
  /-- `InitializationError`, code 0x02 (R182). -/
  | initialization
  /-- `PeripheralError(Timeout)`, code 0x03 (R183). -/
  | timeout
  /-- `PeripheralError(NoDevice)`, code 0x04 (R184). -/
  | noDevice
  deriving DecidableEq, Repr

/-- The reasons a host operation is refused (`60_exceptions.md` R186). They are outcomes the host sees, not refusals of
the model (log 5). -/
inductive RefusedReason where
  /-- `UnknownOp`, code 0xF0. -/
  | unknownOp
  /-- `BadOperand`, code 0xF1. -/
  | badOperand
  /-- `NotReady`, code 0xF2. -/
  | notReady
  deriving DecidableEq, Repr

/-- The outcome of a host operation (`00_scope.md` R11). -/
inductive HostOutcome (α : Type) where
  /-- `OK(v)`. -/
  | ok (v : α)
  /-- `Err(e)`. -/
  | err (e : Err)
  /-- `Refused(r)`. -/
  | refused (r : RefusedReason)
  deriving DecidableEq, Repr

/-- The value of `OK(v)`, typed per operation (`30_encoding.md` R85). A set of identifiers is a list without
duplicates whose order carries no meaning (`10_state.md` R28). -/
inductive Value where
  /-- Nothing: `INIT`, `SELCH`, `OWWRITE`. -/
  | none
  /-- One bit: `OWRESET` (presence), `MATCHROM` (attempted). -/
  | bit (b : Bool)
  /-- One byte: `OWREAD`, `CRC8`. -/
  | byte (b : Byte)
  /-- A set of identifiers: `SEARCH`. -/
  | ids (l : List Identifier)
  deriving DecidableEq, Repr

/-- One transport operation as the trace shows it (`00_scope.md` R13). -/
inductive TransportOp where
  /-- `Wxx`: `TWrite(a, b)` that succeeded. -/
  | wr (a b : Byte)
  /-- `Rxx`: `TRead(a)` that returned `v`. -/
  | rd (a v : Byte)
  /-- `X`: a transport operation that failed with `TransportError`. -/
  | failed
  deriving DecidableEq, Repr

/-- What the environment answers to one transport operation (`20_memory.md` R41, R42). -/
inductive Answer where
  /-- Acknowledged; a read returns the byte, a write ignores it. -/
  | ack (v : Byte)
  /-- Not acknowledged. -/
  | nack
  deriving DecidableEq, Repr

/-- The bridge registers the read pointer can select (`10_state.md` R34, `21_reference_environment.md` R61). -/
inductive BridgeReg where
  | status
  | data
  | channel
  | config
  deriving DecidableEq, Repr

/-- `e.pend`: the command that waits for its parameter byte (`21_reference_environment.md` R61). -/
inductive Pending where
  | none
  | srp
  | wcfg
  | chsl
  | w1wb
  | w1t
  deriving DecidableEq, Repr

/-- `e.rom`: where the peripherals are in a ROM command (`21_reference_environment.md` R61). -/
inductive RomState where
  | idle
  | cmd
  | search
  | matching
  | func
  deriving DecidableEq, Repr

/-- The reference environment: its parameters (`21_reference_environment.md` R60) and its mutable state (R61). -/
structure RefEnv where
  /-- The device address it answers. -/
  addr : Byte
  /-- When false every transport operation fails. -/
  ack : Bool
  /-- Number of channels, 1 or 8. -/
  nch : Nat
  /-- The identifiers attached to each channel, channel 0 first. -/
  dev : List (List Identifier)
  /-- How many status reads after each 1-Wire command return busy. -/
  busyN : Nat
  /-- What successive 1-Wire byte reads return; 0xFF when empty. -/
  feed : List Byte
  /-- `e.ptr`. -/
  ptr : BridgeReg
  /-- `e.st`. -/
  st : Byte
  /-- `e.cfg`, the four configuration flags. -/
  cfg : BitVec 4
  /-- `e.chan`. -/
  chan : BitVec 3
  /-- `e.rd`. -/
  rd : Byte
  /-- `e.pend`. -/
  pend : Pending
  /-- `e.busy`: status reads still to answer busy. -/
  busy : Nat
  /-- `e.part`: identifiers still taking part in the current ROM command. -/
  part : List Identifier
  /-- `e.rom`. -/
  rom : RomState
  /-- `e.k`: bit index in `SEARCH`, byte index in `MATCH`. -/
  k : Nat
  /-- The one transport operation a test makes fail, counted from the next one, which is 0 (R62). -/
  failAt : Option Nat
  deriving DecidableEq, Repr

/-- The environment of the block (`00_scope.md` R17 c; log 2). -/
inductive Env where
  /-- It gives these answers, one to each transport operation, and free values after them: every environment, seen
  over any stretch of operations, is one of these. -/
  | script (answers : List Answer)
  /-- It is the reference environment. -/
  | ref (e : RefEnv)
  deriving DecidableEq, Repr

/-- What the outside world puts before the block (log 6). -/
inductive Input where
  /-- A packet, as its bytes, with the format they are read in (`30_encoding.md` R80, R81; formats B and W: log 9). -/
  | op (f : Format) (bytes : List Byte)
  /-- A power-on reset of the block (`60_exceptions.md` R191, `70_reset_and_hazards.md` R210; log 19). -/
  | blockReset
  /-- The environment changes between two operations (`00_scope.md` R17 c; log 21). -/
  | environment (e : Env)
  deriving DecidableEq, Repr

/-- Why the machine stops with a fault. -/
inductive Fault where
  /-- `SEARCH` ran out of fuel: a hang, not an outcome (`42_rom_search.md` R161, 93 U8; log 7). Raised by `execSearch`
  alone. Safe: the model stops where the hardware goes on with further passes. -/
  | searchHang
  deriving DecidableEq, Repr

/-- Why the model gives no meaning. -/
inductive Refusal where
  /-- The instruction has no meaning yet. Raised by an arm of `exec` alone. Safe. -/
  | notModelled (mnemonic : String)
  /-- Bytes tagged format B or W that are no row of the opcode table (log 20). Raised by `step` alone. Safe: the block
  emits no such bytes. -/
  | unknownCommand
  deriving DecidableEq, Repr

/-- The state. `addr` to `st` are the block's registers, in the order of `10_state.md` R20. -/
structure State where
  /-- The configuration record (`00_scope.md` R7); no step changes it (log 1). -/
  conf : ConfigRecord
  /-- `ADDR`, the device bus address: `ADDR_W` bits, held in a byte whose other bits are zero (`10_state.md` R21;
  log 23). -/
  addr : Byte
  /-- `CH`, the selected channel (R22). -/
  ch : BitVec 3
  /-- `CFG`, the last-known configuration byte (R23). -/
  cfg : Byte
  /-- `MODE` (R24). -/
  mode : Mode
  /-- `LD`, the last-discrepancy position, -1 for none (R26). -/
  ld : Int
  /-- `CAND`, the candidate identifier (R27). -/
  cand : Identifier
  /-- `RES`, the result set in discovery order (R28). -/
  res : List Identifier
  /-- `POS`, the bit position of step 3 of the search (R20, R29). -/
  pos : Nat
  /-- `POLLCNT`, the status reads of the running poll (R30). -/
  pollcnt : Nat
  /-- `ST`, the last status byte a poll read (R31). -/
  st : Byte
  /-- The environment (log 2). -/
  env : Env
  /-- What the outside world puts before the block next, first first (log 6). -/
  inbox : List Input
  /-- The outcome the last step delivered (`00_scope.md` R11; log 6). -/
  outcome : Option (HostOutcome Value)
  /-- Every transport operation issued so far, oldest first (`20_memory.md` R55; log 6). -/
  trace : List TransportOp
  /-- Which free value is drawn next (log 8). -/
  freeIx : Nat
  deriving DecidableEq, Repr

/-! One update per field that a step writes. -/

def State.setAddr (s : State) (v : Byte) : State := { s with addr := v }
def State.setCh (s : State) (v : BitVec 3) : State := { s with ch := v }
def State.setCfg (s : State) (v : Byte) : State := { s with cfg := v }
def State.setMode (s : State) (v : Mode) : State := { s with mode := v }
def State.setLd (s : State) (v : Int) : State := { s with ld := v }
def State.setCand (s : State) (v : Identifier) : State := { s with cand := v }
def State.setRes (s : State) (v : List Identifier) : State := { s with res := v }
def State.setPos (s : State) (v : Nat) : State := { s with pos := v }
def State.setPollcnt (s : State) (v : Nat) : State := { s with pollcnt := v }
def State.setSt (s : State) (v : Byte) : State := { s with st := v }
def State.setEnv (s : State) (v : Env) : State := { s with env := v }
def State.setInbox (s : State) (v : List Input) : State := { s with inbox := v }
def State.setOutcome (s : State) (v : Option (HostOutcome Value)) : State := { s with outcome := v }
def State.setTrace (s : State) (v : List TransportOp) : State := { s with trace := v }
def State.setFreeIx (s : State) (v : Nat) : State := { s with freeIx := v }

/-- The state after power-on (`10_state.md` R38, `70_reset_and_hazards.md` R210): `MODE = UNINIT`. The other registers
have no reset value in the spec: DESIGN CHOICE zero, and -1 for `LD` and the empty list for `RES`, the values `SEARCH`
starts from (log 3). `VARIANT` and `POLL_MAX` are open (log 1); the environment has no scripted answer, so every answer
is a free value (log 2). -/
def State.reset : State where
  conf := defaultConf Config.openVariant (Config.openPollMaxPred + 1)
  addr := 0
  ch := 0
  cfg := 0
  mode := .uninit
  ld := -1
  cand := Vector.replicate 8 0
  res := []
  pos := 0
  pollcnt := 0
  st := 0
  env := .script []
  inbox := []
  outcome := none
  trace := []
  freeIx := 0

end Sys2Proof.Machine
end

