-- ==== Sys2Proof/Machine/Flags.lean ====
section
/-! DEFINITION. The flags, all read from a status byte (`10_state.md` R32, R33), and the codes of outcomes. -/

namespace Sys2Proof.Machine

/-- Bit `i` of a byte (`00_scope.md` R8). -/
def bitOf (b : Byte) (i : Fin 8) : Bool := b.getLsbD i.val

/-- A byte with bit `i` replaced. -/
def withBit (b : Byte) (i : Fin 8) (v : Bool) : Byte :=
  if v then b ||| BitVec.ofNat 8 (2 ^ i.val) else b &&& ~~~ BitVec.ofNat 8 (2 ^ i.val)

/-- `busy = ST[ST_1WB]` (`10_state.md` R32). -/
def busyFlag (c : ConfigRecord) (st : Byte) : Bool := bitOf st c.st1WB

/-- `presence = ST[ST_PPD]` (R32). -/
def presenceFlag (c : ConfigRecord) (st : Byte) : Bool := bitOf st c.stPPD

/-- `idBit = ST[ST_SBR]` (R32). -/
def idBitFlag (c : ConfigRecord) (st : Byte) : Bool := bitOf st c.stSBR

/-- `complementBit = ST[ST_TSB]` (R32). -/
def complementBitFlag (c : ConfigRecord) (st : Byte) : Bool := bitOf st c.stTSB

/-- The status pattern `INIT` expects after a device reset: `(s & INIT_MASK) = INIT_VALUE`
(`40_bridge_controller.md` R106). The flag `rst = ST[ST_RST]` of `10_state.md` R32 enters only here. The short bit and
the direction bit, which 92 D36 and 93 U7 call ignored everywhere, are tested here as R106 and 92 D17 say (DEDUCED,
log 27). -/
def initStatusOk (c : ConfigRecord) (s : Byte) : Bool := s &&& c.initMask == c.initValue

/-- The code of an error (`30_encoding.md` R85). -/
def errCode : Err → Byte
  | .transport => 0x01
  | .initialization => 0x02
  | .timeout => 0x03
  | .noDevice => 0x04

/-- The code of a refusal (R85). -/
def refusedCode : RefusedReason → Byte
  | .unknownOp => 0xF0
  | .badOperand => 0xF1
  | .notReady => 0xF2

/-- The code of an outcome (R85). Code 0x05 is reserved and never produced. -/
def outcomeCode {α : Type} : HostOutcome α → Byte
  | .ok _ => 0x00
  | .err e => errCode e
  | .refused r => refusedCode r

end Sys2Proof.Machine
end

