-- ==== Sys2Proof/Decode.lean ====
section
/-! DEFINITION. The decoder and the encoder (`30_encoding.md` R80 to R92). The block itself decodes only format H; the
decoder of formats B and W reads what the block emits (R80). -/

namespace Sys2Proof

/-- Why bytes are no instruction. For format H the first three are all `Refused(UnknownOp)` (`30_encoding.md` R83). -/
inductive DecodeError where
  /-- No byte at all: the port closed the packet before the opcode. -/
  | emptyPacket
  /-- Byte 0 is not an opcode of the format. -/
  | unknownOpcode (b : Byte)
  /-- Fewer operand bytes than the opcode requires. -/
  | shortPacket (b : Byte)
  deriving DecidableEq, Repr

/-- The rows of each format, in the table's order. -/
def opsOf : Format → List Op
  | .H => [.init, .selch, .owreset, .owwrite, .owread, .matchrom, .search, .crc8]
  | .B => [.drst, .srp, .wcfg, .chsl, .w1rs, .w1wb, .w1rb, .w1t, .w1sb]
  | .W => [.romMatch, .romSearch]

/-- Byte 0 of a row (`30_encoding.md` R81 for format H, R88 for format B, R92 for format W). -/
def opcode (c : ConfigRecord) : Op → Byte
  | .init => 0x01
  | .selch => 0x02
  | .owreset => 0x10
  | .owwrite => 0x11
  | .owread => 0x12
  | .matchrom => 0x13
  | .search => 0x20
  | .crc8 => 0x30
  | .drst => c.cmdDRST
  | .srp => c.cmdSRP
  | .wcfg => c.cmdWCFG
  | .chsl => c.cmdCHSL
  | .w1rs => c.cmd1WRS
  | .w1wb => c.cmd1WWB
  | .w1rb => c.cmd1WRB
  | .w1t => c.cmd1WT
  | .w1sb => c.cmd1WSB
  | .romMatch => c.romMatch
  | .romSearch => c.romSearch

/-- An instruction of one operand byte. -/
def oneByte (f : Byte → Instr) : List Byte → Option (Instr × List Byte)
  | b :: rest => some (f b, rest)
  | [] => none

/-- An instruction of eight identifier bytes, byte 0 first (`20_memory.md` R48). -/
def eightBytes (f : Identifier → Instr) : List Byte → Option (Instr × List Byte)
  | b0 :: b1 :: b2 :: b3 :: b4 :: b5 :: b6 :: b7 :: rest => some (f #v[b0, b1, b2, b3, b4, b5, b6, b7], rest)
  | _ => none

/-- The operand bytes after byte 0 (`30_encoding.md` R81, R82, R84), and what is left of the packet; `none` when there
are too few. -/
def operands (op : Op) (bytes : List Byte) : Option (Instr × List Byte) :=
  match op with
  | .init =>
    match bytes with
    | addr :: ch :: rest => some (.init addr ch, rest)
    | _ => none
  | .selch => oneByte .selch bytes
  | .owreset => some (.owreset, bytes)
  | .owwrite => oneByte .owwrite bytes
  | .owread => some (.owread, bytes)
  | .matchrom => eightBytes .matchrom bytes
  | .search => some (.search, bytes)
  | .crc8 =>
    match bytes with
    | n :: rest => if rest.length < n.toNat then none else some (.crc8 (rest.take n.toNat), rest.drop n.toNat)
    | [] => none
  | .drst => some (.drst, bytes)
  | .srp => oneByte .srp bytes
  | .wcfg => oneByte .wcfg bytes
  | .chsl => oneByte .chsl bytes
  | .w1rs => some (.w1rs, bytes)
  | .w1wb => oneByte .w1wb bytes
  | .w1rb => some (.w1rb, bytes)
  | .w1t => oneByte .w1t bytes
  | .w1sb => oneByte .w1sb bytes
  | .romMatch => eightBytes .romMatch bytes
  | .romSearch => some (.romSearch, bytes)

/-- The decoder of one format: the instruction and the bytes after it, or the reason there is none
(`30_encoding.md` R81 to R84). -/
def decode (c : ConfigRecord) (f : Format) : List Byte → Except DecodeError (Instr × List Byte)
  | [] => .error .emptyPacket
  | b :: rest =>
    match (opsOf f).find? (fun op => opcode c op == b) with
    | none => .error (.unknownOpcode b)
    | some op =>
      match operands op rest with
      | none => .error (.shortPacket b)
      | some r => .ok r

/-! The encoder, from the same tables. -/

/-- The row an instruction belongs to. -/
def opOf : Instr → Op
  | .init _ _ => .init
  | .selch _ => .selch
  | .owreset => .owreset
  | .owwrite _ => .owwrite
  | .owread => .owread
  | .matchrom _ => .matchrom
  | .search => .search
  | .crc8 _ => .crc8
  | .drst => .drst
  | .srp _ => .srp
  | .wcfg _ => .wcfg
  | .chsl _ => .chsl
  | .w1rs => .w1rs
  | .w1wb _ => .w1wb
  | .w1rb => .w1rb
  | .w1t _ => .w1t
  | .w1sb _ => .w1sb
  | .romMatch _ => .romMatch
  | .romSearch => .romSearch

/-- The format of a row (`spec/opcode_table.json`). -/
def formatOf : Op → Format
  | .init | .selch | .owreset | .owwrite | .owread | .matchrom | .search | .crc8 => .H
  | .drst | .srp | .wcfg | .chsl | .w1rs | .w1wb | .w1rb | .w1t | .w1sb => .B
  | .romMatch | .romSearch => .W

/-- The operand bytes of an instruction, in the order of `30_encoding.md` R81. -/
def operandBytes : Instr → List Byte
  | .init addr ch => [addr, ch]
  | .selch ch => [ch]
  | .owreset => []
  | .owwrite b => [b]
  | .owread => []
  | .matchrom id => id.toList
  | .search => []
  | .crc8 data => BitVec.ofNat 8 data.length :: data
  | .drst => []
  | .srp p => [p]
  | .wcfg f => [f]
  | .chsl code => [code]
  | .w1rs => []
  | .w1wb b => [b]
  | .w1rb => []
  | .w1t d => [d]
  | .w1sb b => [b]
  | .romMatch id => id.toList
  | .romSearch => []

/-- The bytes of an instruction. -/
def encode (c : ConfigRecord) (i : Instr) : List Byte :=
  opcode c (opOf i) :: operandBytes i

/-- The length in bytes the table gives an instruction (`30_encoding.md` R81, R84, R86). -/
def lengthOf : Instr → Nat
  | .init _ _ => 3
  | .selch _ => 2
  | .owreset => 1
  | .owwrite _ => 2
  | .owread => 1
  | .matchrom _ => 9
  | .search => 1
  | .crc8 data => 2 + data.length
  | .drst => 1
  | .srp _ => 2
  | .wcfg _ => 2
  | .chsl _ => 2
  | .w1rs => 1
  | .w1wb _ => 2
  | .w1rb => 1
  | .w1t _ => 2
  | .w1sb _ => 2
  | .romMatch _ => 9
  | .romSearch => 1

/-! The host's way in: an instruction given as one number. -/

/-- The longest instruction, in bytes: `CRC8` with 255 data bytes (`30_encoding.md` R81). -/
def longestInstr : Nat := 257

/-- The bytes of a number of `nbits` bits, byte 0 its least significant eight, zeros after them up to the longest
instruction, so that it is never a short packet (R83; DESIGN CHOICE, log 28). -/
def wordBytes (nbits w : Nat) : List Byte :=
  (List.range longestInstr).map fun k => BitVec.ofNat 8 ((w % 2 ^ nbits) >>> (8 * k))

/-- The format a number's bytes are read in, with the codes of the record `c`: the first of H, B, W whose decoder takes
them, and H where none does, since the command port takes packets of that format alone (R80), so that such a number is
`Refused(UnknownOp)` (R83). The table gives `DRST` and `ROM_SEARCH` the same byte 0xF0, so that byte alone is read as
`DRST` with the default codes. That a number's format is found in this way is the model's own (DESIGN CHOICE,
log 11). -/
def formatOfWord (c : ConfigRecord) (nbits w : Nat) : Format :=
  match decode c .H (wordBytes nbits w), decode c .B (wordBytes nbits w), decode c .W (wordBytes nbits w) with
  | .ok _, _, _ => .H
  | .error _, .ok _, _ => .B
  | .error _, .error _, .ok _ => .W
  | .error _, .error _, .error _ => .H

/-- What the decoder reads from an instruction given as a number, with the default codes, which are those of
`spec/opcode_table.json` (log 11). -/
def decodeTableWord (nbits w : Nat) : Option Instr :=
  match decode (defaultConf .multi8 1) (formatOfWord (defaultConf .multi8 1) nbits w) (wordBytes nbits w) with
  | .ok (i, _) => some i
  | .error _ => none

end Sys2Proof
end

