-- ==== Sys2Proof/WellFormed.lean ====
section
/-! DEFINITION. Which instructions and which configuration records are well formed. The machine gives a meaning to
ill-formed operands too (a `Refused` outcome, or the bridge's own reaction); these checks say what the spec calls
legal. -/

namespace Sys2Proof

/-- The upper `8 - ADDR_W` bits of an address byte are zero (`30_encoding.md` R82). -/
def addrLegal (c : ConfigRecord) (addr : Byte) : Bool := addr.toNat < 2 ^ c.addrW

/-- A channel byte is below `NCH` (`30_encoding.md` R82). -/
def channelLegal (c : ConfigRecord) (ch : Byte) : Bool := ch.toNat < nch c

/-- A configuration byte's upper nibble is the complement of its lower one (`10_state.md` R35). -/
def configLegal (f : Byte) : Bool := f.extractLsb' 4 4 == ~~~ f.extractLsb' 0 4

/-- The operand values the encodings allow (`30_encoding.md` R81, R82, R88 to R91); `CHSL` is of `MULTI8` only (R88). -/
def wellFormed (c : ConfigRecord) : Instr → Bool
  | .init addr ch => addrLegal c addr && channelLegal c ch
  | .selch ch => channelLegal c ch
  | .owreset => true
  | .owwrite _ => true
  | .owread => true
  | .matchrom _ => true
  | .search => true
  | .crc8 data => data.length ≤ 255
  | .drst => true
  | .srp p => p == c.ptrStatus || p == c.ptrData || p == c.ptrChannel || p == c.ptrConfig
  | .wcfg f => configLegal f
  | .chsl code => decide (c.variant = .multi8) && c.chcode.toList.contains code
  | .w1rs => true
  | .w1wb _ => true
  | .w1rb => true
  | .w1t d => d == 0x00 || d == 0x80
  | .w1sb _ => true
  | .romMatch _ => true
  | .romSearch => true

/-- No two rows of one format have the same byte 0. -/
def codesDistinct (c : ConfigRecord) : Bool :=
  decide (((opsOf .H).map (opcode c)).Nodup ∧ ((opsOf .B).map (opcode c)).Nodup ∧ ((opsOf .W).map (opcode c)).Nodup)

/-- The four read-pointer codes differ (`30_encoding.md` R89). -/
def pointersDistinct (c : ConfigRecord) : Bool :=
  decide ([c.ptrStatus, c.ptrData, c.ptrChannel, c.ptrConfig].Nodup)

/-- The eight status bits stand at eight places (`10_state.md` R33). -/
def statusBitsDistinct (c : ConfigRecord) : Bool :=
  decide ([c.st1WB, c.stPPD, c.stSD, c.stLL, c.stRST, c.stSBR, c.stTSB, c.stDIR].Nodup)

/-- The eight channel codes differ (`30_encoding.md` R90). -/
def channelCodesDistinct (c : ConfigRecord) : Bool := decide c.chcode.toList.Nodup

/-- A configuration record that describes a machine: `POLL_MAX` at least 1 and `ADDR_W` at most 8
(`00_scope.md` R7, `30_encoding.md` R82), codes, pointers, status bits and channel codes distinct. -/
def configWellFormed (c : ConfigRecord) : Bool :=
  decide (1 ≤ c.pollMax) && decide (c.addrW ≤ 8) && codesDistinct c && pointersDistinct c && statusBitsDistinct c
    && channelCodesDistinct c

end Sys2Proof
end

