-- ==== Sys2Proof/Machine/Operands.lean ====
section
/-! DEFINITION. Operand checks and operand assembly (`30_encoding.md` R82, R90, R91), and the parts of an identifier
(`00_scope.md` R9, `20_memory.md` R48, R49). -/

namespace Sys2Proof.Machine

/-- `addr[ADDR_W-1:0]` (`40_bridge_controller.md` R104). -/
def addrBits (c : ConfigRecord) (addr : Byte) : Byte := BitVec.ofNat 8 (addr.toNat % 2 ^ c.addrW)

/-- The operand check of `INIT`: the upper bits of `addr` are zero and `ch < NCH` (`40_bridge_controller.md` R104). -/
def initOperandsLegal (c : ConfigRecord) (addr ch : Byte) : Bool := addrLegal c addr && channelLegal c ch

/-- A channel operand as the three bits of `CH` (`10_state.md` R22). -/
def channelBits (ch : Byte) : BitVec 3 := BitVec.ofNat 3 ch.toNat

/-- `CHCODE[c]` (`30_encoding.md` R90). -/
def channelCode (c : ConfigRecord) (ch : BitVec 3) : Byte := c.chcode.get ch.toFin

/-- `CHECHO[c]` (R90). -/
def channelEcho (c : ConfigRecord) (ch : BitVec 3) : Byte := c.checho.get ch.toFin

/-- The triplet's parameter, `dir ++ 0000000` (`30_encoding.md` R91). -/
def directionByte (dir : Bool) : Byte := if dir then 0x80 else 0x00

/-- `id.byte[k]`, for `k` in 0..7 (`00_scope.md` R9). -/
def idByte (id : Identifier) (k : Nat) : Byte := id.getD k 0

/-- `id.bit(i)`, for `i` in 0..63: bit `i mod 8` of byte `i div 8` (`00_scope.md` R9, `20_memory.md` R49). -/
def idBit (id : Identifier) (i : Nat) : Bool := (idByte id (i / 8)).getLsbD (i % 8)

/-- `id` with `id.bit(i)` replaced. -/
def withIdBit (id : Identifier) (i : Nat) (v : Bool) : Identifier :=
  id.setIfInBounds (i / 8) (let b := idByte id (i / 8)
    if v then b ||| BitVec.ofNat 8 (2 ^ (i % 8)) else b &&& ~~~ BitVec.ofNat 8 (2 ^ (i % 8)))

/-- The identifier whose eight bytes are zero, from which a `SEARCH` starts (`42_rom_search.md` R151). -/
def zeroId : Identifier := Vector.replicate 8 0

/-- The first seven bytes, over which the checksum is computed (`43_checksum.md` R173). -/
def idFirst7 (id : Identifier) : List Byte := id.toList.take 7

end Sys2Proof.Machine
end

