-- ==== Sys2Proof/Machine/RefEnv.lean ====
section
/-! DEFINITION. The reference environment `RefEnv` of `21_reference_environment.md`: a test fixture, never a premise of
a claim about the block unless the claim names it (92 D37; log 18). It reads codes, pointers and bit positions from the
block's own configuration record, as `95_test_vectors.md` requires. -/

namespace Sys2Proof.Machine

/-- The status byte with RST and LL set, 0x18 at the default positions (R61, R65). -/
def statusAfterDeviceReset (c : ConfigRecord) : Byte := withBit (withBit 0 c.stLL true) c.stRST true

/-- A `RefEnv` with the given parameters (R60) in its initial state (R61). -/
def refEnvStart (c : ConfigRecord) (addr : Byte) (ack : Bool) (nch : Nat) (dev : List (List Identifier)) (busyN : Nat)
    (feed : List Byte) : RefEnv where
  addr := addr
  ack := ack
  nch := nch
  dev := dev
  busyN := busyN
  feed := feed
  ptr := .status
  st := statusAfterDeviceReset c
  cfg := 0
  chan := 0
  rd := 0xFF
  pend := .none
  busy := 0
  part := []
  rom := .idle
  k := 0
  failAt := none

/-- Does it acknowledge a transport operation to address `a` (R62)? -/
def refAcks (a : Byte) (e : RefEnv) : Bool := e.ack && a == e.addr && e.failAt != some 0

/-- The count towards the transport operation that is to fail, after one operation (R62). -/
def refTick (e : RefEnv) : RefEnv :=
  match e.failAt with
  | some (n + 1) => { e with failAt := some n }
  | some 0 => { e with failAt := none }
  | none => e

/-- The identifiers attached to the selected channel, `e.dev[e.chan]`. -/
def refAttached (e : RefEnv) : List Identifier := e.dev.getD e.chan.toNat []

/-- What an acknowledged `readRegister` returns, by `e.ptr`, and the state after it (R63). -/
def refReadReg (c : ConfigRecord) (e : RefEnv) : Byte × RefEnv :=
  match e.ptr with
  | .status => (withBit e.st c.st1WB (decide (0 < e.busy)), { e with busy := e.busy - 1 })
  | .data => (e.rd, e)
  | .config => (0#4 ++ e.cfg, e)
  | .channel => (channelEcho c e.chan, e)

/-- The register a pointer code names (R64, `30_encoding.md` R89). -/
def refPointer (c : ConfigRecord) (b : Byte) : Option BridgeReg :=
  if b = c.ptrStatus then some .status
  else if b = c.ptrData then some .data
  else if b = c.ptrChannel then some .channel
  else if b = c.ptrConfig then some .config
  else none

/-- `SRP` with its parameter: an unknown code changes nothing (R64). -/
def refSetPointer (c : ConfigRecord) (b : Byte) (e : RefEnv) : RefEnv :=
  match refPointer c b with
  | some r => { e with ptr := r }
  | none => e

/-- `WCFG` with its parameter: taken when the upper nibble is the complement of the lower (R64). -/
def refWriteConfig (c : ConfigRecord) (b : Byte) (e : RefEnv) : RefEnv :=
  if configLegal b then { e with cfg := b.extractLsb' 0 4, st := withBit e.st c.stRST false, ptr := .config }
  else { e with ptr := .config }

/-- The channel below `e.nch` that a code selects, if any (R64). -/
def refChannelOf (c : ConfigRecord) (b : Byte) (e : RefEnv) : Option (BitVec 3) :=
  ((List.range 8).map (BitVec.ofNat 3)).find? fun ch => decide (ch.toNat < e.nch) && channelCode c ch == b

/-- `CHSL` with its parameter (R64). -/
def refSelectChannel (c : ConfigRecord) (b : Byte) (e : RefEnv) : RefEnv :=
  match refChannelOf c b e with
  | some ch => { e with chan := ch, ptr := .channel }
  | none => { e with ptr := .channel }

/-- A 1-Wire command starts: busy for `e.busyN` status reads, read pointer at the status register (R65 to R68). -/
def refStart1W (e : RefEnv) : RefEnv := { e with busy := e.busyN, ptr := .status }

/-- Bus reset, `CMD_1WRS` (R66). -/
def refBusReset (c : ConfigRecord) (e : RefEnv) : RefEnv :=
  let present := !(refAttached e).isEmpty
  { refStart1W e with
    part := refAttached e
    st := withBit (withBit e.st c.stPPD present) c.stSD false
    rom := if present then .cmd else .idle }

/-- Byte write, `1WWB` with parameter `b` (R67). -/
def refByteWrite (c : ConfigRecord) (b : Byte) (e : RefEnv) : RefEnv :=
  match e.rom with
  | .cmd =>
    if b = c.romSearch then { refStart1W e with rom := .search, k := 0 }
    else if b = c.romMatch then { refStart1W e with rom := .matching, k := 0 }
    else { refStart1W e with rom := .func }
  | .matching =>
    { refStart1W e with
      part := e.part.filter fun d => idByte d e.k == b
      k := e.k + 1
      rom := if e.k + 1 = 8 then .func else .matching }
  | .idle | .search | .func => refStart1W e

/-- Byte read, `CMD_1WRB` (R65). -/
def refByteRead (e : RefEnv) : RefEnv :=
  { refStart1W e with rd := e.feed.headD 0xFF, feed := e.feed.tail }

/-- The wired-AND of the participants' bits at position `i`; 1 when nobody takes part (R68). -/
def wiredId (part : List Identifier) (i : Nat) : Bool := part.all fun d => idBit d i

/-- The wired-AND of the complements of those bits (R68). -/
def wiredComplement (part : List Identifier) (i : Nat) : Bool := part.all fun d => !idBit d i

/-- The branch the bridge takes (R68, `40_bridge_controller.md` R122). -/
def branchTaken (id cmp dir : Bool) : Bool := if id != cmp then id else if id then true else dir

/-- The status byte after a triplet (R68). -/
def statusAfterTriplet (c : ConfigRecord) (st : Byte) (id cmp taken : Bool) : Byte :=
  withBit (withBit (withBit st c.stSBR id) c.stTSB cmp) c.stDIR taken

/-- Triplet, `1WT` with parameter `b`, direction `b[7]` (R68). -/
def refTriplet (c : ConfigRecord) (b : Byte) (e : RefEnv) : RefEnv :=
  match e.rom with
  | .search =>
    let id := wiredId e.part e.k
    let cmp := wiredComplement e.part e.k
    let taken := branchTaken id cmp (b.getLsbD 7)
    { refStart1W e with
      part := e.part.filter fun d => idBit d e.k == taken
      st := statusAfterTriplet c e.st id cmp taken
      k := e.k + 1
      rom := if e.k + 1 = 64 then .func else .search }
  | .idle | .cmd | .matching | .func => { refStart1W e with st := statusAfterTriplet c e.st true true true }

/-- Device reset, `CMD_DRST` (R65). -/
def refDeviceReset (c : ConfigRecord) (e : RefEnv) : RefEnv :=
  { e with st := statusAfterDeviceReset c, cfg := 0, chan := 0, ptr := .status, busy := 0, rom := .idle, part := [] }

/-- An acknowledged command byte (R65). -/
def refCommand (c : ConfigRecord) (b : Byte) (e : RefEnv) : RefEnv :=
  if b = c.cmdDRST then refDeviceReset c e
  else if b = c.cmdSRP then { e with pend := .srp }
  else if b = c.cmdWCFG then { e with pend := .wcfg }
  else if b = c.cmdCHSL then { e with pend := .chsl }
  else if b = c.cmd1WWB then { e with pend := .w1wb }
  else if b = c.cmd1WT then { e with pend := .w1t }
  else if b = c.cmd1WRS then refBusReset c e
  else if b = c.cmd1WRB then refByteRead e
  else e

/-- An acknowledged `writeRegister`: the parameter of the pending command, or a command byte (R64, R65). -/
def refWriteReg (c : ConfigRecord) (b : Byte) (e : RefEnv) : RefEnv :=
  match e.pend with
  | .none => refCommand c b e
  | .srp => refSetPointer c b { e with pend := .none }
  | .wcfg => refWriteConfig c b { e with pend := .none }
  | .chsl => refSelectChannel c b { e with pend := .none }
  | .w1wb => refByteWrite c b { e with pend := .none }
  | .w1t => refTriplet c b { e with pend := .none }

/-- `readRegister(a)` (R62, R63): the byte, or `none` when it is not acknowledged, and the state after it. -/
def refRead (c : ConfigRecord) (a : Byte) (e : RefEnv) : Option Byte × RefEnv :=
  if refAcks a e then (some (refReadReg c (refTick e)).1, (refReadReg c (refTick e)).2) else (none, refTick e)

/-- `writeRegister(a, b)` (R62, R64, R65): was it acknowledged, and the state after it. -/
def refWrite (c : ConfigRecord) (a b : Byte) (e : RefEnv) : Bool × RefEnv :=
  if refAcks a e then (true, refWriteReg c b (refTick e)) else (false, refTick e)

end Sys2Proof.Machine
end

