-- ==== Sys2Proof/Machine/Ops.lean ====
section
/-! DEFINITION. The shared operations: the two transport operations (`20_memory.md` R41, R42), the emission helpers and
the poll (`40_bridge_controller.md` R101, R103), ending in an error (`60_exceptions.md` R191, R192) and the wrapper of
the host operations (`41_onewire_bus.md` R129). -/

namespace Sys2Proof.Machine

/-- A procedure of the spec's pseudocode (`00_scope.md` R11, R12): it runs from a state and returns a value, or raises
an error; either way it leaves a state, in which everything written before the `raise` stays written
(`60_exceptions.md` R192). -/
abbrev Proc (α : Type) : Type := EStateM Err State α

/-! ### The transport port -/

/-- The environment's answer to `readRegister(ADDR)`, and the state in which the environment has moved on. -/
def envRead (s : State) : Option Byte × State :=
  match s.env with
  | .script [] =>
    (if Config.freeAck s.freeIx then some (Config.freeByte s.freeIx) else none, s.setFreeIx (s.freeIx + 1))
  | .script (.ack v :: rest) => (some v, s.setEnv (.script rest))
  | .script (.nack :: rest) => (none, s.setEnv (.script rest))
  | .ref e => ((refRead s.conf s.addr e).1, s.setEnv (.ref (refRead s.conf s.addr e).2))

/-- The environment's answer to `writeRegister(ADDR, b)`, and the state in which the environment has moved on. -/
def envWrite (b : Byte) (s : State) : Bool × State :=
  match s.env with
  | .script [] => (Config.freeAck s.freeIx, s.setFreeIx (s.freeIx + 1))
  | .script (.ack _ :: rest) => (true, s.setEnv (.script rest))
  | .script (.nack :: rest) => (false, s.setEnv (.script rest))
  | .ref e => ((refWrite s.conf s.addr b e).1, s.setEnv (.ref (refWrite s.conf s.addr b e).2))

/-- One more transport operation in the trace (`00_scope.md` R13). -/
def record (op : TransportOp) (s : State) : State := s.setTrace (s.trace ++ [op])

/-- `TRead(ADDR)` (`20_memory.md` R41). -/
def tRead : Proc Byte := fun s =>
  match envRead s with
  | (some v, t) => .ok v (record (.rd s.addr v) t)
  | (none, t) => .error .transport (record .failed t)

/-- `TWrite(ADDR, b)` (`20_memory.md` R42). -/
def tWrite (b : Byte) : Proc Unit := fun s =>
  match envWrite b s with
  | (true, t) => .ok () (record (.wr s.addr b) t)
  | (false, t) => .error .transport (record .failed t)

/-- The configuration record. -/
def getConf : Proc ConfigRecord := fun s => .ok s.conf s

/-! ### Emission and the poll -/

/-- `cmd0(c)` (`40_bridge_controller.md` R103). -/
def cmd0 (c : Byte) : Proc Unit := tWrite c

/-- `cmd1(c, p)`: if the first write fails the second is not issued (`40_bridge_controller.md` R103). -/
def cmd1 (c p : Byte) : Proc Unit := do
  tWrite c
  tWrite p

/-- The loop of the poll with `n` status reads left, `n = POLL_MAX - POLLCNT` (`40_bridge_controller.md` R101). The
delay between reads is timing only (`70_reset_and_hazards.md` R222; log 16). -/
def pollLoop : Nat → Proc Byte
  | 0 => throw .timeout
  | n + 1 => do
    let v ← tRead
    modify fun s => (s.setSt v).setPollcnt (s.pollcnt + 1)
    let c ← getConf
    if busyFlag c v then pollLoop n else return v

/-- `pollUntilIdle_proc()` (`40_bridge_controller.md` R101, R102). -/
def pollUntilIdle : Proc Byte := do
  let c ← getConf
  cmd1 c.cmdSRP c.ptrStatus
  modify fun s => s.setPollcnt 0
  pollLoop c.pollMax

/-! ### Ending a host operation -/

/-- The outcome of the operation is delivered to the host (`00_scope.md` R11). -/
def deliver (r : HostOutcome Value) (s : State) : State := s.setOutcome (some r)

/-- `Refused(r)`: no register changes, no transport operation is issued (`60_exceptions.md` R186). -/
def refuse (r : RefusedReason) (s : State) : State := deliver (.refused r) s

/-- Where in a host operation an error was raised, as `60_exceptions.md` R191 tells the cases apart. -/
inductive ErrorSite where
  /-- Anywhere in `INIT` (`40_bridge_controller.md` R109). -/
  | init
  /-- In the poll before the channel-select command of `SELCH` (R113). -/
  | selchPoll
  /-- In the channel-select sequence of `SELCH` (R113). -/
  | selchSequence
  /-- In a body under `host_prim` (`41_onewire_bus.md` R129). -/
  | primitive
  deriving DecidableEq, Repr

/-- The error the host is told: `INIT` renames every one (`40_bridge_controller.md` R109, `60_exceptions.md` R182). -/
def reportedError (site : ErrorSite) (e : Err) : Err :=
  match site with
  | .init => .initialization
  | .selchPoll | .selchSequence | .primitive => e

/-- `MODE` after an error (`60_exceptions.md` R191). -/
def modeAfterError (site : ErrorSite) (e : Err) (m : Mode) : Mode :=
  match site with
  | .init => .uninit
  | .selchPoll => .dirty
  | .selchSequence => .uninit
  | .primitive =>
    match e with
    | .transport | .timeout => .dirty
    | .noDevice | .initialization => m

/-- `CH` becomes a free value (log 8). -/
def freeChannel (s : State) : State := (s.setCh (Config.freeCh s.freeIx)).setFreeIx (s.freeIx + 1)

/-- `CH` and `CFG` become free values (log 8). -/
def freeChannelAndConfig (s : State) : State := freeChannel (s.setCfg (Config.freeCfg s.freeIx))

/-- What an error leaves unspecified becomes a free value: `CH` and `CFG` where the operation ends in
`InitializationError`, that is after a failed `INIT` (`40_bridge_controller.md` R109) and after a wrong echo in `SELCH`
(R113, `70_reset_and_hazards.md` R218, 93 U2; log 26); `CH` alone where a transport operation of the channel-select
sequence of `SELCH` failed (R113). -/
def loseUnspecified (site : ErrorSite) (e : Err) (s : State) : State :=
  match site with
  | .init => freeChannelAndConfig s
  | .selchSequence =>
    match e with
    | .initialization => freeChannelAndConfig s
    | .transport | .timeout | .noDevice => freeChannel s
  | .selchPoll | .primitive => s

/-- An error ends the host operation, this machine's "trap entry" (`60_exceptions.md` R180, R192): `MODE` moves as
R191 says, the outcome is `Err`, everything written before the failing point stays, and control goes nowhere. -/
def takeError (site : ErrorSite) (e : Err) (s : State) : State :=
  deliver (.err (reportedError site e)) ((loseUnspecified site e s).setMode (modeAfterError site e s.mode))

/-- A recovering operation ended `OK`, this machine's "trap return" (`60_exceptions.md` R193): `MODE` is `READY`. -/
def recover (s : State) : State := s.setMode .ready

/-- `host_prim(allowed, body)` (`41_onewire_bus.md` R129). The state beside an `err` or `refused` has the outcome
delivered; beside an `ok` it is the state the body left. -/
def hostPrim {α : Type} (allowed : List Mode) (body : Proc α) (s : State) : HostOutcome α × State :=
  if s.mode ∈ allowed then
    match body s with
    | .ok v t => (.ok v, t)
    | .error e t => (.err e, takeError .primitive e t)
  else (.refused .notReady, refuse .notReady s)

/-- The end of a host operation under `host_prim` whose `OK` value is `value v`. -/
def endPrim {α : Type} (value : α → Value) (r : HostOutcome α × State) : State :=
  match r.1 with
  | .ok v => deliver (.ok (value v)) r.2
  | .err _ | .refused _ => r.2

/-- A fragment of a host operation run as a step of its own: it returns or raises, and `MODE`, which belongs to the
host operation around it (`40_bridge_controller.md` R101, `60_exceptions.md` R194), stays (DESIGN CHOICE, log 9). In
`UNINIT`, where only `INIT` and `CRC8` do anything and `ADDR` must not be read (`10_state.md` R38), it is
`Refused(NotReady)`. -/
def runFragment (p : Proc Unit) (s : State) : State :=
  if s.mode = .uninit then refuse .notReady s
  else
    match p s with
    | .ok _ t => deliver (.ok .none) t
    | .error e t => deliver (.err e) t

/-! ### Reset of the block -/

/-- A power-on reset of the block (`60_exceptions.md` R191, `70_reset_and_hazards.md` R210): its registers are as
after power-on, the bridge chip and the peripherals are not reset. The trace and the counter of free values go on
(DESIGN CHOICE, log 19). -/
def blockReset (s : State) : State :=
  { State.reset with conf := s.conf, env := s.env, inbox := s.inbox, trace := s.trace, freeIx := s.freeIx }

end Sys2Proof.Machine
end

