-- ==== Sys2Proof/Machine/Bridge.lean ====
section
/-! DEFINITION. BridgeController (`40_bridge_controller.md`): `INIT`, `SELCH` and the bridge commands of format B. -/

namespace Sys2Proof.Machine

/-- `selch_seq_proc(ch)` (`40_bridge_controller.md` R112): all eight bits of the echo are compared. -/
def selchSequence (ch : BitVec 3) : Proc Unit := do
  let c ← getConf
  cmd1 c.cmdCHSL (channelCode c ch)
  let e ← tRead
  if e ≠ channelEcho c ch then throw .initialization

/-- The body of `INIT` between `ADDR <- addr` and `CH <- ch` (`40_bridge_controller.md` R104 to R108). -/
def initBody (ch : BitVec 3) : Proc Unit := do
  let c ← getConf
  cmd0 c.cmdDRST
  let s ← tRead
  if !initStatusOk c s then throw .initialization
  cmd1 c.cmdWCFG c.cfgInitW
  let f ← tRead
  if f ≠ c.cfgInit then throw .initialization
  modify fun t => t.setCfg f
  if c.variant = .multi8 then
    let _ ← pollUntilIdle
    selchSequence ch

/-- `INIT` once its operands are accepted (`40_bridge_controller.md` R104): `MODE` is `UNINIT` at once, `ADDR` is
written before the first transport operation, and every failure is reported as `InitializationError` (R109). -/
def initAccepted (addr ch : Byte) (s : State) : State :=
  match initBody (channelBits ch) ((s.setMode .uninit).setAddr (addrBits s.conf addr)) with
  | .ok _ t => deliver (.ok .none) (recover (t.setCh (channelBits ch)))
  | .error e t => takeError .init e t

/-- `INIT addr, ch` (`40_bridge_controller.md` R104); admitted in every mode. -/
def execInit (addr ch : Byte) (s : State) : Host.Outcome State Fault Refusal :=
  .next (if initOperandsLegal s.conf addr ch then initAccepted addr ch s else refuse .badOperand s)

/-- `SELCH` on `MULTI8` in `READY` (`40_bridge_controller.md` R110, R113). -/
def selchMulti (ch : Byte) (s : State) : State :=
  match pollUntilIdle s with
  | .error e t => takeError .selchPoll e t
  | .ok _ t =>
    match selchSequence (channelBits ch) t with
    | .error e u => takeError .selchSequence e u
    | .ok _ u => deliver (.ok .none) (u.setCh (channelBits ch))

/-- `SELCH` with a legal operand in `READY`: on `SINGLE` it does nothing (`40_bridge_controller.md` R111). -/
def selchReady (ch : Byte) (s : State) : State :=
  match s.conf.variant with
  | .single => deliver (.ok .none) s
  | .multi8 => selchMulti ch s

/-- `SELCH ch` (`40_bridge_controller.md` R110): operand check, then mode check, then the body. -/
def execSelch (ch : Byte) (s : State) : Host.Outcome State Fault Refusal :=
  .next (if channelLegal s.conf ch then
      (if s.mode = .ready then selchReady ch s else refuse .notReady s)
    else refuse .badOperand s)

/-! The bridge commands (R115 to R123), each the emission of its bytes (R103); their codes are fields of the
configuration record (`30_encoding.md` R88). -/

/-- `DRST`, device reset (R115). -/
def execDrst (s : State) : Host.Outcome State Fault Refusal := .next (runFragment (cmd0 s.conf.cmdDRST) s)

/-- `SRP`, set read pointer (R116). -/
def execSrp (pointer : Byte) (s : State) : Host.Outcome State Fault Refusal :=
  .next (runFragment (cmd1 s.conf.cmdSRP pointer) s)

/-- `WCFG`, write configuration (R117). -/
def execWcfg (config : Byte) (s : State) : Host.Outcome State Fault Refusal :=
  .next (runFragment (cmd1 s.conf.cmdWCFG config) s)

/-- `CHSL`, channel select (R118). The spec has the command on `MULTI8` only (`30_encoding.md` R88); run as a step of its
own it is the emission of its two bytes on `SINGLE` too (DESIGN CHOICE, log 25). -/
def execChsl (code : Byte) (s : State) : Host.Outcome State Fault Refusal :=
  .next (runFragment (cmd1 s.conf.cmdCHSL code) s)

/-- `1WRS`, 1-Wire reset (R119). -/
def execW1rs (s : State) : Host.Outcome State Fault Refusal := .next (runFragment (cmd0 s.conf.cmd1WRS) s)

/-- `1WWB`, 1-Wire write byte (R120). -/
def execW1wb (data : Byte) (s : State) : Host.Outcome State Fault Refusal :=
  .next (runFragment (cmd1 s.conf.cmd1WWB data) s)

/-- `1WRB`, 1-Wire read byte (R121). -/
def execW1rb (s : State) : Host.Outcome State Fault Refusal := .next (runFragment (cmd0 s.conf.cmd1WRB) s)

/-- `1WT`, 1-Wire triplet (R122). -/
def execW1t (direction : Byte) (s : State) : Host.Outcome State Fault Refusal :=
  .next (runFragment (cmd1 s.conf.cmd1WT direction) s)

/-- `1WSB`, 1-Wire single bit (R123): no host operation emits it; run as a step of its own it is the emission of its
two bytes (DESIGN CHOICE, log 10). -/
def execW1sb (bit : Byte) (s : State) : Host.Outcome State Fault Refusal :=
  .next (runFragment (cmd1 s.conf.cmd1WSB bit) s)

end Sys2Proof.Machine
end

