-- ==== Sys2Proof/Machine/Checksum.lean ====
section
/-! DEFINITION. The Checksum Codec (`43_checksum.md`): Dallas CRC-8 and the operation `CRC8`. -/

namespace Sys2Proof.Machine

/-- One bit step of `crc8` on register `c` with data bit `d` (`43_checksum.md` R170). -/
def crcBit (poly c : Byte) (d : Bool) : Byte :=
  if c.getLsbD 0 != d then (c >>> 1) ^^^ poly else c >>> 1

/-- The eight bit steps of one byte, bit 0 first (`43_checksum.md` R170). -/
def crcByte (poly c d : Byte) : Byte :=
  (List.range 8).foldl (fun r k => crcBit poly r (d.getLsbD k)) c

/-- `crc8(d[0..n-1])`, seeded at 0, bytes in index order (`43_checksum.md` R170). -/
def crc8 (poly : Byte) (data : List Byte) : Byte :=
  data.foldl (crcByte poly) 0

/-- An identifier is valid when its last byte is the checksum of the first seven (`43_checksum.md` R173). -/
def idValid (c : ConfigRecord) (id : Identifier) : Bool := crc8 c.crcPoly (idFirst7 id) == idByte id 7

/-- `CRC8 d` (`43_checksum.md` R172): admitted in every mode, never fails, changes no register. -/
def execCrc8 (data : List Byte) (s : State) : Host.Outcome State Fault Refusal :=
  .next (deliver (.ok (.byte (crc8 s.conf.crcPoly data))) s)

end Sys2Proof.Machine
end

