-- ==== Sys2Proof/Machine/OneWire.lean ====
section
/-! DEFINITION. OneWireBus (`41_onewire_bus.md`): bus reset, byte write, byte read, Match ROM and the search triplet,
each wrapped in two polls, and the ROM commands of format W. -/

namespace Sys2Proof.Machine

/-- `reset_proc()`: poll, bus reset, poll; the presence bit (`41_onewire_bus.md` R130). -/
def busReset : Proc Bool := do
  let c ← getConf
  let _ ← pollUntilIdle
  cmd0 c.cmd1WRS
  let s ← pollUntilIdle
  return presenceFlag c s

/-- `writeByte_proc(b)` (`41_onewire_bus.md` R132). -/
def writeByte (b : Byte) : Proc Unit := do
  let c ← getConf
  let _ ← pollUntilIdle
  cmd1 c.cmd1WWB b
  let _ ← pollUntilIdle

/-- `writeByte_proc` for each byte, in order (`41_onewire_bus.md` R136). -/
def writeBytes : List Byte → Proc Unit
  | [] => return ()
  | b :: bs => do
    writeByte b
    writeBytes bs

/-- `readByte_proc()`: the byte is fetched from the read-data register (`41_onewire_bus.md` R134). -/
def readByte : Proc Byte := do
  let c ← getConf
  let _ ← pollUntilIdle
  cmd0 c.cmd1WRB
  let _ ← pollUntilIdle
  cmd1 c.cmdSRP c.ptrData
  tRead

/-- The Match-ROM command byte and the eight identifier bytes (`41_onewire_bus.md` R136, `30_encoding.md` R92). -/
def matchRomBytes (id : Identifier) : Proc Unit := do
  let c ← getConf
  writeByte c.romMatch
  writeBytes id.toList

/-- `matchROM_proc(id)` (`41_onewire_bus.md` R136): without presence nothing is written. -/
def matchRom (id : Identifier) : Proc Bool := do
  let p ← busReset
  if p then
    matchRomBytes id
    return true
  else
    return false

/-- `searchTriplet_proc(dir)`: the id bit and the complement bit (`41_onewire_bus.md` R140). -/
def searchTriplet (dir : Bool) : Proc (Bool × Bool) := do
  let c ← getConf
  let _ ← pollUntilIdle
  cmd1 c.cmd1WT (directionByte dir)
  let s ← pollUntilIdle
  return (idBitFlag c s, complementBitFlag c s)

/-- `OWRESET` (`41_onewire_bus.md` R131): admitted in `READY` and `DIRTY`; when it ends `OK`, `MODE` is `READY`. -/
def execOwreset (s : State) : Host.Outcome State Fault Refusal :=
  .next (match hostPrim [.ready, .dirty] busReset s with
    | (.ok p, t) => deliver (.ok (.bit p)) (recover t)
    | (.err _, t) => t
    | (.refused _, t) => t)

/-- `OWWRITE b` (`41_onewire_bus.md` R133). -/
def execOwwrite (b : Byte) (s : State) : Host.Outcome State Fault Refusal :=
  .next (endPrim (fun _ => .none) (hostPrim [.ready] (writeByte b) s))

/-- `OWREAD` (`41_onewire_bus.md` R135). -/
def execOwread (s : State) : Host.Outcome State Fault Refusal :=
  .next (endPrim .byte (hostPrim [.ready] readByte s))

/-- `MATCHROM id` (`41_onewire_bus.md` R137): the identifier's checksum is not looked at (R138). -/
def execMatchrom (id : Identifier) (s : State) : Host.Outcome State Fault Refusal :=
  .next (endPrim .bit (hostPrim [.ready] (matchRom id) s))

/-- `ROM_MATCH`: the fragment of `matchROM_proc` after its reset (`41_onewire_bus.md` R136, `30_encoding.md` R92). -/
def execRomMatch (id : Identifier) (s : State) : Host.Outcome State Fault Refusal :=
  .next (runFragment (matchRomBytes id) s)

/-- `ROM_SEARCH`: step 2 of a search pass (`42_rom_search.md` R152, `30_encoding.md` R92). -/
def execRomSearch (s : State) : Host.Outcome State Fault Refusal :=
  .next (runFragment (writeByte s.conf.romSearch) s)

end Sys2Proof.Machine
end

