-- ==== Sys2Proof/Machine/Search.lean ====
section
/-! DEFINITION. ROMSearchEngine (`42_rom_search.md`): the discrepancy-tracking search. -/

namespace Sys2Proof.Machine

/-- The direction supplied at position `p` (`42_rom_search.md` R153). -/
def searchDirection (p : Nat) (ld : Int) (cand : Identifier) : Bool :=
  if (p : Int) < ld then idBit cand p else decide ((p : Int) = ld)

/-- The bit taken (`42_rom_search.md` R154): the direction at a discrepancy, else the one branch there is. -/
def searchBitTaken (idb cmp dir : Bool) : Bool := if !idb && !cmp then dir else idb

/-- `newLD` after position `p`: a discrepancy where 0 was taken is recorded (`42_rom_search.md` R154). -/
def searchNewLd (p : Nat) (idb cmp dir : Bool) (newLd : Int) : Int :=
  if !idb && !cmp && !dir then p else newLd

/-- Step 3 at one position (`42_rom_search.md` R151, R153 to R155). -/
def searchStep (p : Nat) (newLd : Int) : Proc Int := do
  modify fun s => s.setPos p
  let s ← get
  let dir := searchDirection p s.ld s.cand
  let (idb, cmp) ← searchTriplet dir
  if idb && cmp then throw .noDevice
  modify fun s => s.setCand (withIdBit s.cand p (searchBitTaken idb cmp dir))
  return searchNewLd p idb cmp dir newLd

/-- Step 3 at each of the given positions, in order. -/
def searchSteps : List Nat → Int → Proc Int
  | [], newLd => return newLd
  | p :: ps, newLd => do
    let n ← searchStep p newLd
    searchSteps ps n

/-- Step 4 and step 5: the candidate joins `RES` when it is valid and not there yet, and `LD` is updated in either case
(`42_rom_search.md` R156, R157). -/
def searchBookkeeping (newLd : Int) (s : State) : State :=
  let t := s.setLd newLd
  if idValid s.conf s.cand && !s.res.contains s.cand then t.setRes (s.res ++ [s.cand]) else t

/-- How a pass ended. -/
inductive PassEnd where
  /-- Step 1 saw no presence. -/
  | noPresence
  /-- A last discrepancy is left: another pass follows. -/
  | again
  /-- No discrepancy is left. -/
  | last
  deriving DecidableEq, Repr

/-- One pass, steps 1 to 5, and the test of step 6 (`42_rom_search.md` R151). -/
def searchPass : Proc PassEnd := do
  let c ← getConf
  let p ← busReset
  if p then
    writeByte c.romSearch
    let newLd ← searchSteps (List.range 64) (-1)
    modify (searchBookkeeping newLd)
    return if newLd < 0 then .last else .again
  else
    return .noPresence

/-- The loop of passes under fuel (`42_rom_search.md` R158, R161): `false` when the fuel ran out. -/
def searchLoop : Nat → Proc Bool
  | 0 => return false
  | n + 1 => do
    let e ← searchPass
    match e with
    | .again => searchLoop n
    | .noPresence => return true
    | .last => return true

/-- SearchState created fresh (`42_rom_search.md` R151). -/
def searchFresh (s : State) : State := ((s.setRes []).setLd (-1)).setCand zeroId

/-- `search_proc()` (`42_rom_search.md` R151): the identifiers in `RES`, or `none` for a hang. -/
def searchProc : Proc (Option (List Identifier)) := do
  let c ← getConf
  modify searchFresh
  let finished ← searchLoop c.searchFuel
  let s ← get
  return if finished then some s.res else none

/-- `SEARCH` (`42_rom_search.md` R150). -/
def execSearch (s : State) : Host.Outcome State Fault Refusal :=
  match hostPrim [.ready] searchProc s with
  | (.ok (some l), t) => .next (deliver (.ok (.ids l)) t)
  | (.ok none, _) => .fault .searchHang
  | (.err _, t) => .next t
  | (.refused _, t) => .next t

end Sys2Proof.Machine
end

