-- ==== Sys2Proof/Machine/Dispatch.lean ====
section
/-! DEFINITION. The meaning of each instruction, one arm each. -/

namespace Sys2Proof.Machine

def exec (i : Instr) (s : State) : Host.Outcome State Fault Refusal :=
  match i with
  | .init addr ch => Sys2Proof.Machine.execInit addr ch s
  | .selch ch => Sys2Proof.Machine.execSelch ch s
  | .owreset => Sys2Proof.Machine.execOwreset s
  | .owwrite b => Sys2Proof.Machine.execOwwrite b s
  | .owread => Sys2Proof.Machine.execOwread s
  | .matchrom id => Sys2Proof.Machine.execMatchrom id s
  | .search => Sys2Proof.Machine.execSearch s
  | .crc8 data => Sys2Proof.Machine.execCrc8 data s
  | .drst => Sys2Proof.Machine.execDrst s
  | .srp pointer => Sys2Proof.Machine.execSrp pointer s
  | .wcfg config => Sys2Proof.Machine.execWcfg config s
  | .chsl code => Sys2Proof.Machine.execChsl code s
  | .w1rs => Sys2Proof.Machine.execW1rs s
  | .w1wb data => Sys2Proof.Machine.execW1wb data s
  | .w1rb => Sys2Proof.Machine.execW1rb s
  | .w1t direction => Sys2Proof.Machine.execW1t direction s
  | .w1sb bit => Sys2Proof.Machine.execW1sb bit s
  | .romMatch id => Sys2Proof.Machine.execRomMatch id s
  | .romSearch => Sys2Proof.Machine.execRomSearch s

end Sys2Proof.Machine
end

