-- ==== Sys2Proof/Machine/Step.lean ====
section
/-! DEFINITION. One step of the machine: the next thing the outside world put before the block. -/

namespace Sys2Proof.Machine

/-- Bytes that are no instruction: a packet of format H is `Refused(UnknownOp)` (`30_encoding.md` R83); bytes of
format B or W that are no row have no meaning (log 20). -/
def undecodable (f : Format) (s : State) : Host.Outcome State Fault Refusal :=
  match f with
  | .H => .next (refuse .unknownOp s)
  | .B => .refused .unknownCommand
  | .W => .refused .unknownCommand

/-- A packet: the instruction its first bytes encode runs, with the packet taken from the inbox; bytes after the
instruction are not read (log 12). -/
def runPacket (f : Format) (bytes : List Byte) (s : State) : Host.Outcome State Fault Refusal :=
  match decode s.conf f bytes with
  | .ok (i, _) => exec i s
  | .error _ => undecodable f s

/-- One step. With nothing in the inbox the block waits (`10_state.md` R38; log 13). -/
def step (s : State) : Host.Outcome State Fault Refusal :=
  match s.inbox with
  | [] => .next s
  | .op f bytes :: rest => runPacket f bytes (s.setInbox rest)
  | .blockReset :: rest => .next (blockReset (s.setInbox rest))
  | .environment e :: rest => .next ((s.setInbox rest).setEnv e)

/-- `s` with the instruction given as a number put first into the inbox, in the format its decoder takes with the codes
of the state's record (logs 11, 14). -/
def State.withFetchWord (s : State) (nbits w : Nat) : State :=
  s.setInbox (.op (formatOfWord s.conf nbits w) (wordBytes nbits w) :: s.inbox)

end Sys2Proof.Machine
end

