-- ==== Sys2Proof/Safety.lean ====
section
/-! DEFINITION. The terms claims use: the invariant of the block, what an environment answers to a poll, when a
reference environment lets the block work, and the order on identifiers. -/

namespace Sys2Proof.Safety

open Sys2Proof.Machine

/-! ### The invariant -/

/-- The invariants of `10_state.md` R39 with the ranges of R20, R21, R28 and R30. "`MODE = READY` implies" is taken for
`DIRTY` too, since `OWRESET` leads from `DIRTY` to `READY` without writing `CH` or `CFG`. -/
structure Inv (s : State) : Prop where
  ldRange : -1 ≤ s.ld ∧ s.ld ≤ 63
  posRange : s.pos ≤ 63
  pollcntRange : s.pollcnt ≤ s.conf.pollMax
  addrRange : s.addr.toNat < 2 ^ s.conf.addrW
  resValid : ∀ m ∈ s.res, idValid s.conf m = true
  resNodup : s.res.Nodup
  selected : s.mode ≠ .uninit → s.ch.toNat < nch s.conf ∧ s.cfg = s.conf.cfgInit

/-! ### What a scripted environment answers to a poll -/

/-- The answers to one poll that ends: `srp` and `ptr` acknowledge the two writes (their bytes are not looked at),
`busy` are the status bytes read while the bridge is busy, `idle` the first whose busy flag is clear. -/
structure PollRun where
  srp : Byte
  ptr : Byte
  busy : List Byte
  idle : Byte

/-- It ends within `POLL_MAX` reads, at the first status byte that is not busy (`40_bridge_controller.md` R102). -/
def PollRun.ok (c : ConfigRecord) (r : PollRun) : Prop :=
  (∀ v ∈ r.busy, busyFlag c v = true) ∧ r.busy.length < c.pollMax ∧ busyFlag c r.idle = false

/-- The answers, in order. -/
def PollRun.answers (r : PollRun) : List Answer :=
  .ack r.srp :: .ack r.ptr :: (r.busy.map .ack ++ [.ack r.idle])

/-- The trace of the poll (`40_bridge_controller.md` R101). -/
def PollRun.trace (c : ConfigRecord) (a : Byte) (r : PollRun) : List TransportOp :=
  .wr a c.cmdSRP :: .wr a c.ptrStatus :: (r.busy.map (.rd a) ++ [.rd a r.idle])

/-- `s` after transport operations `ops` whose last poll was `r`, with the answers `rest` still to come. -/
def afterPolls (s : State) (ops : List TransportOp) (r : PollRun) (rest : List Answer) : State :=
  { s with
    st := r.idle
    pollcnt := r.busy.length + 1
    env := .script rest
    trace := s.trace ++ ops }

/-- The answers to one `writeByte_proc`: a poll, the command and its data byte acknowledged, a poll. -/
structure WriteRun where
  before : PollRun
  cmd : Byte
  param : Byte
  after : PollRun

/-- Both polls end. -/
def WriteRun.ok (c : ConfigRecord) (w : WriteRun) : Prop := w.before.ok c ∧ w.after.ok c

/-- The answers, in order. -/
def WriteRun.answers (w : WriteRun) : List Answer :=
  w.before.answers ++ (.ack w.cmd :: .ack w.param :: w.after.answers)

/-- The trace of a bridge command with a parameter between two polls (`41_onewire_bus.md` R132, R140). -/
def WriteRun.trace (c : ConfigRecord) (a code b : Byte) (w : WriteRun) : List TransportOp :=
  w.before.trace c a ++ (.wr a code :: .wr a b :: w.after.trace c a)

/-- The trace of one `writeByte_proc` after the other, the bytes in order. -/
def writesTrace (c : ConfigRecord) (a : Byte) : List Byte → List WriteRun → List TransportOp
  | b :: bs, w :: ws => w.trace c a c.cmd1WWB b ++ writesTrace c a bs ws
  | _, _ => []

/-! ### The trace without polls -/

/-- What is left to read of a bridge command. -/
inductive TraceGap where
  /-- Nothing: the next write is a command byte. -/
  | command
  /-- A parameter byte that is kept. -/
  | kept
  /-- A parameter byte that is dropped, the pointer code of a set-read-pointer command. -/
  | dropped

/-- The trace with every `TRead` and every set-read-pointer pair removed (`41_onewire_bus.md` R139): a command byte
that takes a parameter (`30_encoding.md` R88) keeps the byte after it. -/
def withoutPolls (c : ConfigRecord) : TraceGap → List TransportOp → List TransportOp
  | _, [] => []
  | g, .rd _ _ :: ops => withoutPolls c g ops
  | g, .failed :: ops => .failed :: withoutPolls c g ops
  | .dropped, .wr _ _ :: ops => withoutPolls c .command ops
  | .kept, .wr a b :: ops => .wr a b :: withoutPolls c .command ops
  | .command, .wr a b :: ops =>
    if b = c.cmdSRP then withoutPolls c .dropped ops
    else if b = c.cmdWCFG ∨ b = c.cmdCHSL ∨ b = c.cmd1WWB ∨ b = c.cmd1WT ∨ b = c.cmd1WSB then
      .wr a b :: withoutPolls c .kept ops
    else .wr a b :: withoutPolls c .command ops

/-- The bridge's 1-Wire commands (`30_encoding.md` R88). -/
def isOneWireCommand (c : ConfigRecord) (b : Byte) : Bool :=
  b == c.cmd1WRS || b == c.cmd1WWB || b == c.cmd1WRB || b == c.cmd1WT || b == c.cmd1WSB

/-- Does a command byte take a parameter (`30_encoding.md` R88)? -/
def takesParameter (c : ConfigRecord) (b : Byte) : Bool :=
  b == c.cmdSRP || b == c.cmdWCFG || b == c.cmdCHSL || b == c.cmd1WWB || b == c.cmd1WT || b == c.cmd1WSB

/-! ### Reading a trace -/

/-- Which flags the running primitive takes from the status byte that ends its next poll (`10_state.md` R32). -/
inductive FlagUse where
  /-- The busy flag alone. -/
  | busy
  /-- The presence flag too: a bus reset (`41_onewire_bus.md` R130). -/
  | presence
  /-- The id bit and the complement bit too: a search triplet (`41_onewire_bus.md` R140). -/
  | triplet

/-- What the last operation of a trace was to the poll it stands in. -/
inductive PollRead where
  /-- No status read of a poll. -/
  | none
  /-- A status read with the busy flag set. -/
  | busy
  /-- The status read that ended the poll. -/
  | idle
  /-- The same after a triplet, with the id bit and the complement bit set: no device responded
  (`42_rom_search.md` R155). -/
  | noDevice
  deriving DecidableEq

/-- What the operations of a trace so far say about the next one. -/
structure TraceScan where
  /-- What the next write is. -/
  gap : TraceGap
  /-- The next read is a status read of a poll: the read pointer was set to the status register, and only reads came
  after that. -/
  polling : Bool
  /-- The next read is the status byte after a device reset (`40_bridge_controller.md` R105). -/
  resetRead : Bool
  /-- What the last operation was. -/
  last : PollRead
  /-- What the next poll is for. -/
  flags : FlagUse

/-- Before the first operation of a host operation. -/
def TraceScan.start : TraceScan := ⟨.command, false, false, .none, .busy⟩

/-- What the poll after a command byte is for; setting the read pointer belongs to the poll itself. -/
def flagsAfterCommand (c : ConfigRecord) (b : Byte) (u : FlagUse) : FlagUse :=
  if b = c.cmdSRP then u else if b = c.cmd1WRS then .presence else if b = c.cmd1WT then .triplet else .busy

/-- What a status read of a poll that is for `u` is, by the byte it returned. -/
def pollRead (c : ConfigRecord) (u : FlagUse) (v : Byte) : PollRead :=
  if busyFlag c v then .busy
  else
    match u with
    | .busy | .presence => .idle
    | .triplet => if idBitFlag c v && complementBitFlag c v then .noDevice else .idle

/-- One more operation of the trace. -/
def TraceScan.after (c : ConfigRecord) (x : TraceScan) : TransportOp → TraceScan
  | .failed => { x with last := .none }
  | .rd _ v =>
    if x.polling then
      { x with resetRead := false, last := pollRead c x.flags v, flags := if busyFlag c v then x.flags else .busy }
    else { x with resetRead := false, last := .none }
  | .wr _ b =>
    match x.gap with
    | .dropped => { x with gap := .command, polling := decide (b = c.ptrStatus), resetRead := false, last := .none }
    | .kept => { x with gap := .command, polling := false, resetRead := false, last := .none }
    | .command =>
      { gap := if b = c.cmdSRP then .dropped else if takesParameter c b then .kept else .command
        polling := false
        resetRead := decide (b = c.cmdDRST)
        last := .none
        flags := flagsAfterCommand c b x.flags }

/-- What the last of the operations of a host operation was. -/
def lastRead (c : ConfigRecord) (ops : List TransportOp) : PollRead := (ops.foldl (TraceScan.after c) .start).last

/-- The operations end in a poll that timed out: the two writes of a poll and `POLL_MAX` busy reads
(`40_bridge_controller.md` R101, R102). -/
def endsInTimeout (c : ConfigRecord) (a : Byte) (ops : List TransportOp) : Prop :=
  ∃ (p : List TransportOp) (vs : List Byte),
    ops = p ++ (.wr a c.cmdSRP :: .wr a c.ptrStatus :: vs.map (.rd a)) ∧ vs.length = c.pollMax ∧
      ∀ v ∈ vs, busyFlag c v = true

/-- If the operation writes a 1-Wire command byte, the one before it was the status read that ended a poll, and no
triplet without an answer (`30_encoding.md` R86). -/
def commandAllowed (c : ConfigRecord) (x : TraceScan) : TransportOp → Bool
  | .wr _ b =>
    match x.gap with
    | .command => !isOneWireCommand c b || decide (x.last = .idle)
    | .kept | .dropped => true
  | .rd _ _ | .failed => true

/-- Every 1-Wire command of a trace comes right after the status read that ended a poll (`30_encoding.md` R86,
`70_reset_and_hazards.md` R216). -/
def polled (c : ConfigRecord) : TraceScan → List TransportOp → Bool
  | _, [] => true
  | x, op :: ops => commandAllowed c x op && polled c (x.after c op) ops

/-! ### Status bits the block does not look at -/

/-- Two status bytes that end a poll agree in the flags the primitive takes from them. -/
def flagsAgree (c : ConfigRecord) (u : FlagUse) (v w : Byte) : Bool :=
  match u with
  | .busy => true
  | .presence => presenceFlag c v == presenceFlag c w
  | .triplet => idBitFlag c v == idBitFlag c w && complementBitFlag c v == complementBitFlag c w

/-- Two bytes a read may return that agree wherever the block looks (`10_state.md` R33, 93 U7): after a device reset
in the outcome of the status test (`40_bridge_controller.md` R106); in a poll in the busy flag, and where that is
clear in the flags the primitive takes; anywhere else in every bit. -/
def sameRead (c : ConfigRecord) (x : TraceScan) (v w : Byte) : Bool :=
  if x.resetRead then initStatusOk c v == initStatusOk c w
  else if x.polling then busyFlag c v == busyFlag c w && (busyFlag c v || flagsAgree c x.flags v w)
  else v == w

/-- Two traces that differ only in status bits the block does not look at. -/
def sameButIgnored (c : ConfigRecord) : TraceScan → List TransportOp → List TransportOp → Bool
  | _, [], [] => true
  | x, .rd a v :: p, .rd b w :: q => a == b && sameRead c x v w && sameButIgnored c (x.after c (.rd a v)) p q
  | x, .wr a v :: p, .wr b w :: q => a == b && v == w && sameButIgnored c (x.after c (.wr a v)) p q
  | x, .failed :: p, .failed :: q => sameButIgnored c (x.after c .failed) p q
  | _, _, _ => false

/-! ### Answers that give a trace -/

/-- The answer with which a transport operation shows in the trace as it does; what answers a write beside its
acknowledgement is not looked at (`20_memory.md` R41, R42). -/
def gives : TransportOp → Answer → Prop
  | .rd _ v, a => a = .ack v
  | .wr _ _, a => a ≠ .nack
  | .failed, a => a = .nack

/-- The answers to the operations of a trace, in order. -/
def AnswersGive (ops : List TransportOp) (as : List Answer) : Prop := List.Forall₂ gives ops as

/-! ### Where `INIT` stops -/

/-- The operations of `INIT` up to the configuration read-back (`40_bridge_controller.md` R104). -/
def initTraceConfig (c : ConfigRecord) (a status config : Byte) : List TransportOp :=
  [.wr a c.cmdDRST, .rd a status, .wr a c.cmdWCFG, .wr a c.cfgInitW, .rd a config]

/-- The channel-select sequence with the echo read (`40_bridge_controller.md` R112). -/
def selchTrace (c : ConfigRecord) (a : Byte) (k : Fin 8) (echo : Byte) : List TransportOp :=
  [.wr a c.cmdCHSL, .wr a (c.chcode.get k), .rd a echo]

/-- The operations of an `INIT` that succeeds (`40_bridge_controller.md` R104, R108). -/
def initTrace (c : ConfigRecord) (a : Byte) (k : Fin 8) (status : Byte) (r : PollRun) : List TransportOp :=
  initTraceConfig c a status c.cfgInit ++
    match c.variant with
    | .single => []
    | .multi8 => r.trace c a ++ selchTrace c a k (c.checho.get k)

/-- The operations of an `INIT` of channel `k` that fails, for each of the causes of `40_bridge_controller.md` R109: it
stops right after the answer that failed it. -/
inductive InitStops (c : ConfigRecord) (a : Byte) (k : Fin 8) : List TransportOp → Prop where
  /-- Any of its transport operations is not acknowledged. -/
  | nack (status : Byte) (r : PollRun) (n : Nat) (hs : initStatusOk c status = true) (hr : r.ok c)
      (hn : n < (initTrace c a k status r).length) : InitStops c a k ((initTrace c a k status r).take n ++ [.failed])
  /-- The status byte after the device reset has not the expected pattern (R106). -/
  | status (status : Byte) (hs : initStatusOk c status = false) : InitStops c a k [.wr a c.cmdDRST, .rd a status]
  /-- The configuration is not confirmed (R107). -/
  | config (status f : Byte) (hs : initStatusOk c status = true) (hf : f ≠ c.cfgInit) :
      InitStops c a k (initTraceConfig c a status f)
  /-- On `MULTI8`, the poll before the channel selection times out (R108). -/
  | timeout (status : Byte) (busy : List Byte) (hv : c.variant = .multi8) (hs : initStatusOk c status = true)
      (hb : ∀ v ∈ busy, busyFlag c v = true) (hn : busy.length = c.pollMax) :
      InitStops c a k (initTraceConfig c a status c.cfgInit ++
        (.wr a c.cmdSRP :: .wr a c.ptrStatus :: busy.map (.rd a)))
  /-- On `MULTI8`, the echo is not the channel's (R112, R124). -/
  | echo (status e : Byte) (r : PollRun) (hv : c.variant = .multi8) (hs : initStatusOk c status = true) (hr : r.ok c)
      (he : e ≠ c.checho.get k) :
      InitStops c a k (initTraceConfig c a status c.cfgInit ++ (r.trace c a ++ selchTrace c a k e))

/-! ### A reference environment that lets the block work -/

/-- The premise of `21_reference_environment.md` R70 as it stands between two host operations: the environment
acknowledges at `ADDR`, no operation is to fail, no command waits for a parameter, and every poll ends within
`POLL_MAX` reads (R69). -/
structure RefReady (s : State) (e : RefEnv) : Prop where
  env : s.env = .ref e
  ack : e.ack = true
  addr : e.addr = s.addr
  noFailure : e.failAt = none
  noPending : e.pend = .none
  busyNow : e.busy < s.conf.pollMax
  busyNext : e.busyN < s.conf.pollMax

/-! ### Identifiers -/

/-- `x` comes before `y` in the order of `42_rom_search.md` R160: the bit sequences agree below some position, where
`x` has 0 and `y` has 1. -/
def IdBefore (x y : Identifier) : Prop :=
  ∃ q < 64, (∀ i < q, idBit x i = idBit y i) ∧ idBit x q = false ∧ idBit y q = true

/-! ### Packets -/

/-- The length byte 0 decides, byte 1 for `CRC8` (`30_encoding.md` R81, R84); `none` for a reserved byte 0. -/
def packetLength : List Byte → Option Nat
  | [] => none
  | b :: rest =>
    if b = 0x01 then some 3
    else if b = 0x02 then some 2
    else if b = 0x10 then some 1
    else if b = 0x11 then some 2
    else if b = 0x12 then some 1
    else if b = 0x13 then some 9
    else if b = 0x20 then some 1
    else if b = 0x30 then some (2 + (rest.headD 0).toNat)
    else none

/-- The packet is all there. -/
def packetComplete (bytes : List Byte) : Prop := ∃ n, packetLength bytes = some n ∧ n ≤ bytes.length

/-! ### Admission and operands -/

/-- Is the operation one of format H? -/
def isHostOp (i : Instr) : Bool := decide (formatOf (opOf i) = .H)

/-- The admission table (`60_exceptions.md` R190) of the host operations. A bridge or ROM command run as a step is
refused in `UNINIT` alone (`10_state.md` R38; log 9). -/
def admitted (m : Mode) : Instr → Bool
  | .init _ _ | .crc8 _ => true
  | .owreset => decide (m ≠ .uninit)
  | .selch _ | .owwrite _ | .owread | .matchrom _ | .search => decide (m = .ready)
  | .drst | .srp _ | .wcfg _ | .chsl _ | .w1rs | .w1wb _ | .w1rb | .w1t _ | .w1sb _ | .romMatch _ | .romSearch =>
    decide (m ≠ .uninit)

/-- The operand check (`30_encoding.md` R82). -/
def operandsLegal (c : ConfigRecord) : Instr → Bool
  | .init addr ch => decide (addr.toNat < 2 ^ c.addrW) && decide (ch.toNat < nch c)
  | .selch ch => decide (ch.toNat < nch c)
  | _ => true

end Sys2Proof.Safety
end

