-- ==== Sys2Proof/Certificates/Slice0/Obligations.lean ====
section
/-! DEFINITION. The statements about the model. Each docstring names the rule of the spec it formalises, or says that
it is derived, and names the log entry where it rests on a choice of the model. Statements about a scripted
environment hold for every environment that gives those answers. -/

open Sys2Proof Sys2Proof.Machine Sys2Proof.Safety

/-! ### Encoding -/

/-- `30_encoding.md` R81, R88, R92 on one word of each row, written from the tables there and `95_test_vectors.md` V1. -/
def Obligations.TableWordsDecode : Prop :=
  ∀ (v : Variant) (n : Nat),
  decode (defaultConf v n) .H [0x01, 0x18, 0x03] = .ok (.init 0x18 0x03, []) ∧
  decode (defaultConf v n) .H [0x02, 0x05] = .ok (.selch 0x05, []) ∧
  decode (defaultConf v n) .H [0x10] = .ok (.owreset, []) ∧
  decode (defaultConf v n) .H [0x11, 0xCC] = .ok (.owwrite 0xCC, []) ∧
  decode (defaultConf v n) .H [0x12] = .ok (.owread, []) ∧
  decode (defaultConf v n) .H [0x13, 0x28, 0xFF, 0x4A, 0x1C, 0x00, 0x00, 0x01, 0x68] =
    .ok (.matchrom #v[0x28, 0xFF, 0x4A, 0x1C, 0x00, 0x00, 0x01, 0x68], []) ∧
  decode (defaultConf v n) .H [0x20] = .ok (.search, []) ∧
  decode (defaultConf v n) .H [0x30, 0x07, 0x28, 0xFF, 0x4A, 0x1C, 0x00, 0x00, 0x00] =
    .ok (.crc8 [0x28, 0xFF, 0x4A, 0x1C, 0x00, 0x00, 0x00], []) ∧
  decode (defaultConf v n) .B [0xF0] = .ok (.drst, []) ∧
  decode (defaultConf v n) .B [0xE1, 0xF0] = .ok (.srp 0xF0, []) ∧
  decode (defaultConf v n) .B [0xD2, 0xE1] = .ok (.wcfg 0xE1, []) ∧
  decode (defaultConf v n) .B [0xC3, 0xA5] = .ok (.chsl 0xA5, []) ∧
  decode (defaultConf v n) .B [0xB4] = .ok (.w1rs, []) ∧
  decode (defaultConf v n) .B [0xA5, 0x55] = .ok (.w1wb 0x55, []) ∧
  decode (defaultConf v n) .B [0x96] = .ok (.w1rb, []) ∧
  decode (defaultConf v n) .B [0x78, 0x80] = .ok (.w1t 0x80, []) ∧
  decode (defaultConf v n) .B [0x87, 0x80] = .ok (.w1sb 0x80, []) ∧
  decode (defaultConf v n) .W [0x55, 0x28, 0xFF, 0x4A, 0x1C, 0x00, 0x00, 0x01, 0x68] =
    .ok (.romMatch #v[0x28, 0xFF, 0x4A, 0x1C, 0x00, 0x00, 0x01, 0x68], []) ∧
  decode (defaultConf v n) .W [0xF0] = .ok (.romSearch, [])

/-- Decoding the encoding of a well-formed instruction gives it back, and leaves the bytes after it, for every
configuration record whose codes differ within a format. -/
def Obligations.DecodeOfEncode : Prop :=
  ∀ (c : ConfigRecord) (i : Instr) (rest : List Byte), codesDistinct c = true → wellFormed c i = true →
    decode c (formatOf (opOf i)) (encode c i ++ rest) = .ok (i, rest)

/-- The other direction: what the decoder takes is the encoding of what it gives, so no bit of an encoding is
dropped. -/
def Obligations.EncodeOfDecode : Prop :=
  ∀ (c : ConfigRecord) (f : Format) (bytes rest : List Byte) (i : Instr), decode c f bytes = .ok (i, rest) →
    encode c i ++ rest = bytes ∧ formatOf (opOf i) = f

/-- Derived from `30_encoding.md` R84 with R81 and R83: a packet decodes exactly when byte 0 is an opcode and all its
bytes are there, and the decoder reads as many bytes as the opcode, or the count of `CRC8`, says. That a packet with
further bytes decodes too is the model's choice (log 12). -/
def Obligations.PacketDecodesExactlyWhenComplete : Prop :=
  ∀ (c : ConfigRecord) (bytes : List Byte),
    ((∃ i rest, decode c .H bytes = .ok (i, rest)) ↔ packetComplete bytes) ∧
    ∀ i rest, decode c .H bytes = .ok (i, rest) → ∃ n, packetLength bytes = some n ∧ rest = bytes.drop n

/-- `30_encoding.md` R83: a reserved byte 0 or a short packet is `Refused(UnknownOp)`, with no state change and no
transport activity. -/
def Obligations.ReservedOrShortPacketIsRefused : Prop :=
  ∀ (s : State) (bytes : List Byte) (rest : List Input), s.inbox = .op .H bytes :: rest → ¬ packetComplete bytes →
    step s = .next { s with inbox := rest, outcome := some (.refused .unknownOp) }

/-! ### The step -/

/-- A packet whose bytes decode runs the decoded instruction, with the packet taken from the inbox. The inbox is the
model's own (log 6); that bytes of formats B and W, which the block does not decode (`30_encoding.md` R80), run as
steps is the model's choice (log 9), and so is that bytes after the instruction are not read (log 12). -/
def Obligations.StepRunsDecodedInstruction : Prop :=
  ∀ (s : State) (f : Format) (bytes tail : List Byte) (rest : List Input) (i : Instr),
    s.inbox = .op f bytes :: rest → decode s.conf f bytes = .ok (i, tail) →
    step s = exec i { s with inbox := rest }

/-- The model's choices of logs 13 and 21: with nothing before it the block waits, and a change of the environment
changes nothing of the block. -/
def Obligations.StepWithoutPacketLeavesBlock : Prop :=
  (∀ s : State, s.inbox = [] → step s = .next s) ∧
  ∀ (s : State) (e : Env) (rest : List Input), s.inbox = .environment e :: rest →
    step s = .next { s with inbox := rest, env := e }

/-- `70_reset_and_hazards.md` R210: a reset of the block leaves `MODE = UNINIT` whatever it was, and does not reset the
bridge chip or the peripherals. -/
def Obligations.BlockResetLeavesUninit : Prop :=
  ∀ (s : State) (rest : List Input), s.inbox = .blockReset :: rest →
    ∃ t, step s = .next t ∧ t.mode = .uninit ∧ t.env = s.env ∧ t.conf = s.conf ∧ t.inbox = rest

/-! ### Whole-machine rules -/

/-- Every instruction but `SEARCH` completes from every state, with an outcome; `SEARCH` completes or hangs
(`42_rom_search.md` R161; the fuel is log 7). The premise that every transport operation returns (93 U12) is built into
the model (log 15). For the instructions of formats B and W it is the model's choice that they are steps with an
outcome (log 9). -/
def Obligations.EveryInstructionCompletes : Prop :=
  (∀ (i : Instr) (s : State), i ≠ .search → ∃ t, exec i s = .next t ∧ t.outcome.isSome = true ∧
    t.conf = s.conf ∧ t.inbox = s.inbox ∧ s.trace <+: t.trace) ∧
  ∀ s : State, (∃ t, exec .search s = .next t ∧ t.outcome.isSome = true ∧
    t.conf = s.conf ∧ t.inbox = s.inbox ∧ s.trace <+: t.trace) ∨ exec .search s = .fault .searchHang

/-- The frame of all instructions, by owner (`00_scope.md` R18, `10_state.md` R21 to R25): `ADDR` is
written by `INIT` alone, `CFG` by `INIT` alone but where `SELCH` ends in `InitializationError`, after which it is a free
value as `CH` is (93 U2; log 26), `CH` by `INIT` and `SELCH`, `LD`, `CAND`, `RES`, `POS` by `SEARCH`; `CRC8` and the bridge
commands write neither `POLLCNT` nor `ST`; `CRC8` does not write `MODE`, nor do the fragments of formats B and W run as
steps (the model's choice, log 9); no instruction changes the configuration record or the inbox. -/
def Obligations.RegistersAreWrittenByTheirOwners : Prop :=
  ∀ (i : Instr) (s t : State), exec i s = .next t →
    t.conf = s.conf ∧ t.inbox = s.inbox ∧
    ((∀ addr ch, i ≠ .init addr ch) → t.addr = s.addr ∧
      ((∀ ch, i ≠ .selch ch) ∨ t.outcome ≠ some (.err .initialization) → t.cfg = s.cfg)) ∧
    ((∀ addr ch, i ≠ .init addr ch) → (∀ ch, i ≠ .selch ch) → t.ch = s.ch) ∧
    (i ≠ .search → t.ld = s.ld ∧ t.cand = s.cand ∧ t.res = s.res ∧ t.pos = s.pos) ∧
    (formatOf (opOf i) = .B ∨ (∃ d, i = .crc8 d) → t.pollcnt = s.pollcnt ∧ t.st = s.st) ∧
    (formatOf (opOf i) ≠ .H ∨ (∃ d, i = .crc8 d) → t.mode = s.mode)

/-- Derived from `20_memory.md` R44 and `10_state.md` R21: an instruction adds to the trace, no operation it adds follows
one that failed, and one that failed is the outcome, which `INIT` reports under another name. Every operation it adds
goes to `ADDR`. For an instruction of format B or W run as a step, that its failed operation is its outcome is the
model's choice (log 9). -/
def Obligations.NoTransportOperationFollowsAFailedOne : Prop :=
  ∀ (i : Instr) (s t : State), exec i s = .next t → ∃ ops, t.trace = s.trace ++ ops ∧
    TransportOp.failed ∉ ops.dropLast ∧
    (TransportOp.failed ∈ ops →
      ((∃ addr ch, i = .init addr ch) → t.outcome = some (.err .initialization)) ∧
      ((∀ addr ch, i ≠ .init addr ch) → t.outcome = some (.err .transport))) ∧
    (∀ a b, TransportOp.wr a b ∈ ops → a = t.addr) ∧ (∀ a v, TransportOp.rd a v ∈ ops → a = t.addr)

/-- `30_encoding.md` R86 and `70_reset_and_hazards.md` R216: whatever the environment answers, a host operation writes a
1-Wire command right after a status read, with the read pointer set to the status register, in which the busy flag was
clear. -/
def Obligations.OneWireCommandsFollowAnIdlePoll : Prop :=
  ∀ (i : Instr) (s t : State), isHostOp i = true → codesDistinct s.conf = true → exec i s = .next t →
    ∃ ops, t.trace = s.trace ++ ops ∧ polled s.conf .start ops = true

/-- `60_exceptions.md` R190, the admission table: an operation with legal operands that the mode does not admit is
`Refused(NotReady)` and changes nothing; one that the mode admits is not refused. -/
def Obligations.AdmissionByMode : Prop :=
  ∀ (i : Instr) (s : State), isHostOp i = true → operandsLegal s.conf i = true →
    (admitted s.mode i = false → exec i s = .next { s with outcome := some (.refused .notReady) }) ∧
    (admitted s.mode i = true → ∀ t r, exec i s = .next t → t.outcome ≠ some (.refused r))

/-- The operand check comes before the mode check (`60_exceptions.md` R189, `30_encoding.md` R82): in every mode a bad
operand is `Refused(BadOperand)` and changes nothing. -/
def Obligations.BadOperandIsRefusedInEveryMode : Prop :=
  ∀ (i : Instr) (s : State), operandsLegal s.conf i = false →
    exec i s = .next { s with outcome := some (.refused .badOperand) }

/-- A refused operation changes no state and issues no transport operation (`60_exceptions.md` R186). -/
def Obligations.RefusedChangesNothing : Prop :=
  ∀ (i : Instr) (s t : State) (r : RefusedReason), exec i s = .next t → t.outcome = some (.refused r) →
    t = { s with outcome := some (.refused r) }

/-- `30_encoding.md` R85: the codes of the outcomes, code 0x05 never, and the type of the value of each host
operation. -/
def Obligations.OutcomesAreTheTable : Prop :=
  (∀ v : Value, outcomeCode (.ok v) = 0x00) ∧
  outcomeCode (.err .transport : HostOutcome Value) = 0x01 ∧
  outcomeCode (.err .initialization : HostOutcome Value) = 0x02 ∧
  outcomeCode (.err .timeout : HostOutcome Value) = 0x03 ∧
  outcomeCode (.err .noDevice : HostOutcome Value) = 0x04 ∧
  outcomeCode (.refused .unknownOp : HostOutcome Value) = 0xF0 ∧
  outcomeCode (.refused .badOperand : HostOutcome Value) = 0xF1 ∧
  outcomeCode (.refused .notReady : HostOutcome Value) = 0xF2 ∧
  (∀ r : HostOutcome Value, outcomeCode r ≠ 0x05) ∧
  ∀ (i : Instr) (s t : State) (v : Value), exec i s = .next t → t.outcome = some (.ok v) →
    ((∃ addr ch, i = .init addr ch) ∨ (∃ ch, i = .selch ch) ∨ (∃ b, i = .owwrite b) → v = .none) ∧
    (i = .owreset ∨ (∃ id, i = .matchrom id) → ∃ b, v = .bit b) ∧
    (i = .owread ∨ (∃ d, i = .crc8 d) → ∃ b, v = .byte b) ∧
    (i = .search → ∃ l, v = .ids l)

/-- `60_exceptions.md` R191 and R193: the one step that leaves `UNINIT` is an `INIT` that ends `OK`, and it leads to
`READY`. -/
def Obligations.OnlyInitLeavesUninit : Prop :=
  ∀ s t : State, step s = .next t → s.mode = .uninit → t.mode ≠ .uninit →
    t.mode = .ready ∧ t.outcome = some (.ok .none) ∧
    ∃ bytes rest addr ch tail, s.inbox = .op .H bytes :: rest ∧ decode s.conf .H bytes = .ok (.init addr ch, tail)

/-- `60_exceptions.md` R191 and R193: a step that leads from `DIRTY` to `READY` is an `OWRESET` or an `INIT` that ends
`OK`. -/
def Obligations.RecoveryFromDirty : Prop :=
  ∀ s t : State, step s = .next t → s.mode = .dirty → t.mode = .ready →
    ∃ bytes rest tail, s.inbox = .op .H bytes :: rest ∧
      ((decode s.conf .H bytes = .ok (.owreset, tail) ∧ ∃ p, t.outcome = some (.ok (.bit p))) ∨
        (∃ addr ch, decode s.conf .H bytes = .ok (.init addr ch, tail)) ∧ t.outcome = some (.ok .none))

/-- The invariant of `10_state.md` R39 (with R20, R21, R28, R30) is kept by every step. -/
def Obligations.StepKeepsInvariant : Prop :=
  ∀ s t : State, Inv s → step s = .next t → Inv t

/-- The invariant holds after reset, and `MODE` is `UNINIT` (`10_state.md` R38). The values of the other registers are
the model's choice (log 3). -/
def Obligations.ResetMeetsInvariant : Prop :=
  Inv State.reset ∧ State.reset.mode = .uninit

/-- The block does not look at the other status bits (`10_state.md` R33, 93 U7), for every environment: when a host
operation adds `ops` to the trace, an environment whose answers give operations `ops'` that differ from `ops` only in
bits the block does not look at makes the operation add `ops'` and end in the same outcome with the same registers but
`ST`, and a `SEARCH` that hangs on `ops` hangs on `ops'`. Of `CH` and `CFG` it is said where the outcome is `OK`; after
an error they may be free values. In the status read of `INIT` the bits of `INIT_MASK` are looked at, the short bit and
the direction bit among them by default (log 27). -/
def Obligations.IgnoredStatusBitsDoNotMatter : Prop :=
  ∀ (i : Instr) (s : State) (ops ops' : List TransportOp) (as rest : List Answer), isHostOp i = true →
    codesDistinct s.conf = true → pointersDistinct s.conf = true →
    sameButIgnored s.conf .start ops ops' = true → AnswersGive ops' as →
    (∀ t, exec i s = .next t → t.trace = s.trace ++ ops →
      ∃ u, exec i { s with env := .script (as ++ rest) } = .next u ∧ u.trace = s.trace ++ ops' ∧
        u.env = .script rest ∧ u.outcome = t.outcome ∧ u.mode = t.mode ∧ u.addr = t.addr ∧ u.ld = t.ld ∧
        u.cand = t.cand ∧ u.res = t.res ∧ u.pos = t.pos ∧ u.pollcnt = t.pollcnt ∧
        ∀ v, t.outcome = some (.ok v) → u.ch = t.ch ∧ u.cfg = t.cfg) ∧
    (i = .search → s.mode = .ready → ∀ t, searchProc s = .ok none t → t.trace = s.trace ++ ops →
      exec i s = .fault .searchHang ∧ exec i { s with env := .script (as ++ rest) } = .fault .searchHang)

/-! ### Checksum Codec -/

/-- `43_checksum.md` R172: the bytes of `CRC8`, which completes in every mode with the checksum and changes nothing. -/
def Obligations.Crc8ReturnsChecksum : Prop :=
  ∀ (d : List Byte) (s : State),
    exec (.crc8 d) s = .next { s with outcome := some (.ok (.byte (crc8 s.conf.crcPoly d))) } ∧
    (d.length ≤ 255 → decode s.conf .H (0x30 :: BitVec.ofNat 8 d.length :: d) = .ok (.crc8 d, []))

/-- `43_checksum.md` R174: `crc8` is linear over GF(2), zero bytes have checksum 0, the all-zero identifier is valid, and
two valid identifiers with the same first seven bytes are equal. -/
def Obligations.Crc8IsLinear : Prop :=
  (∀ (poly : Byte) (a b : List Byte), a.length = b.length →
    crc8 poly (List.zipWith (· ^^^ ·) a b) = crc8 poly a ^^^ crc8 poly b) ∧
  (∀ (poly : Byte) (n : Nat), crc8 poly (List.replicate n 0) = 0) ∧
  ∀ c : ConfigRecord, idValid c #v[0, 0, 0, 0, 0, 0, 0, 0] = true ∧
    ∀ x y : Identifier, idValid c x = true → idValid c y = true → x.toList.take 7 = y.toList.take 7 → x = y

/-- A byte string followed by its checksum has checksum 0 (`43_checksum.md` R173, `95_test_vectors.md` V52), whatever
the polynomial. -/
def Obligations.Crc8OfStringAndChecksumIsZero : Prop :=
  ∀ (poly : Byte) (d : List Byte), crc8 poly (d ++ [crc8 poly d]) = 0

/-- `43_checksum.md` R173: an identifier is valid when the checksum of bytes 0 to 6 is byte 7, which is equivalent to
the checksum of all eight bytes being 0; with `CRC_POLY` = 0x8C. -/
def Obligations.ValidIffChecksumOfAllEightIsZero : Prop :=
  ∀ (c : ConfigRecord) (b0 b1 b2 b3 b4 b5 b6 b7 : Byte), c.crcPoly = 0x8C →
    (idValid c #v[b0, b1, b2, b3, b4, b5, b6, b7] = true ↔ crc8 c.crcPoly [b0, b1, b2, b3, b4, b5, b6] = b7) ∧
    (idValid c #v[b0, b1, b2, b3, b4, b5, b6, b7] = true ↔ crc8 c.crcPoly [b0, b1, b2, b3, b4, b5, b6, b7] = 0)

/-- `43_checksum.md` R175, the worked values, with `CRC_POLY` = 0x8C. -/
def Obligations.Crc8WorkedValues : Prop :=
  ([[0x01], [0x02], [0x04], [0x08], [0x10], [0x20], [0x40], [0x80], [0xFF], [0x28]].map (crc8 0x8C) =
    [0x5E, 0xBC, 0x61, 0xC2, 0x9D, 0x23, 0x46, 0x8C, 0x35, 0xE1]) ∧
  ([1, 2, 3, 4, 5, 6, 7, 8].map (fun n => ([true, false, false, false, false, false, false, false].take n).foldl
      (crcBit 0x8C) 0) = [0x8C, 0x46, 0x23, 0x9D, 0xC2, 0x61, 0xBC, 0x5E]) ∧
  ([1, 2, 3, 4, 5, 6, 7, 8].map (fun n => crc8 0x8C ([0x28, 0xFF, 0x4A, 0x1C, 0x00, 0x00, 0x00, 0x36].take n)) =
    [0xE1, 0x82, 0x08, 0xFC, 0xD7, 0xD4, 0x36, 0x00]) ∧
  crc8 0x8C [0x31, 0x32, 0x33, 0x34, 0x35, 0x36, 0x37, 0x38, 0x39] = 0xA1 ∧
  crc8 0x8C [0x02, 0x1C, 0xB8, 0x01, 0x00, 0x00, 0x00] = 0xA2 ∧
  ∀ c : ConfigRecord, c.crcPoly = 0x8C → idValid c #v[0x28, 0xFF, 0x4A, 0x1C, 0x00, 0x00, 0x00, 0x36] = true

/-! ### The poll -/

/-- `40_bridge_controller.md` R101, R102: the poll returns the first status byte whose busy flag is clear; `POLLCNT`
counts the reads, `ST` holds that byte, and nothing else of the block changes. -/
def Obligations.PollReturnsFirstIdleStatus : Prop :=
  ∀ (s : State) (r : PollRun) (rest : List Answer), r.ok s.conf → s.env = .script (r.answers ++ rest) →
    pollUntilIdle s = .ok r.idle (afterPolls s (r.trace s.conf s.addr) r rest)

/-- `40_bridge_controller.md` R101, R102 (c): after `POLL_MAX` busy reads the poll raises `PeripheralError(Timeout)`,
with `POLLCNT = POLL_MAX` and the last busy byte in `ST` (`60_exceptions.md` R183). -/
def Obligations.PollTimesOutAfterPollMaxReads : Prop :=
  ∀ (s : State) (w1 w2 last : Byte) (busy : List Byte) (rest : List Answer),
    (∀ v ∈ busy ++ [last], busyFlag s.conf v = true) → busy.length + 1 = s.conf.pollMax →
    s.env = .script (.ack w1 :: .ack w2 :: ((busy ++ [last]).map .ack ++ rest)) →
    pollUntilIdle s = .error .timeout { s with
      st := last, pollcnt := s.conf.pollMax, env := .script rest
      trace := s.trace ++ (.wr s.addr s.conf.cmdSRP :: .wr s.addr s.conf.ptrStatus ::
        (busy ++ [last]).map (.rd s.addr)) }

/-- `40_bridge_controller.md` R101, R102 for every environment: a poll adds the writes of `CMD_SRP` and `PTR_STATUS` and
then its status reads. One that returns made between 1 and `POLL_MAX` of them, as `POLLCNT` counts them, all but the
last busy, and the last is its value and in `ST`; a timeout comes after exactly `POLL_MAX` busy reads, the last of them
in `ST`; the only other error is `TransportError`, at a write or at a read after fewer than `POLL_MAX` busy reads. -/
def Obligations.PollReadsAreBounded : Prop :=
  ∀ s : State,
    (∀ v t, pollUntilIdle s = .ok v t → busyFlag s.conf v = false ∧ t.st = v ∧
      ∃ busy : List Byte, (∀ w ∈ busy, busyFlag s.conf w = true) ∧ busy.length < s.conf.pollMax ∧ t.pollcnt = busy.length + 1 ∧
        t.trace = s.trace ++ (.wr s.addr s.conf.cmdSRP :: .wr s.addr s.conf.ptrStatus ::
          (busy ++ [v]).map (.rd s.addr))) ∧
    ∀ e t, pollUntilIdle s = .error e t →
      (e = .timeout ∧ ∃ busy : List Byte, (∀ w ∈ busy, busyFlag s.conf w = true) ∧ busy.length = s.conf.pollMax ∧
        t.pollcnt = busy.length ∧ (∀ w, busy.getLast? = some w → t.st = w) ∧
        t.trace = s.trace ++ (.wr s.addr s.conf.cmdSRP :: .wr s.addr s.conf.ptrStatus :: busy.map (.rd s.addr))) ∨
      (e = .transport ∧ (t.trace = s.trace ++ [.failed] ∨
        t.trace = s.trace ++ [.wr s.addr s.conf.cmdSRP, .failed] ∨
        ∃ busy : List Byte, (∀ w ∈ busy, busyFlag s.conf w = true) ∧ busy.length < s.conf.pollMax ∧ t.pollcnt = busy.length ∧
          t.trace = s.trace ++ (.wr s.addr s.conf.cmdSRP :: .wr s.addr s.conf.ptrStatus ::
            (busy.map (.rd s.addr) ++ [.failed]))))

/-! ### BridgeController -/

/-- `40_bridge_controller.md` R104 on `SINGLE`, the normal run: five transport operations, and the registers it
leaves. -/
def Obligations.InitOnSingleSucceeds : Prop :=
  ∀ (s : State) (addr ch status w1 w2 w3 : Byte) (rest : List Answer),
    s.conf.variant = .single → addr.toNat < 2 ^ s.conf.addrW → ch = 0 → status &&& s.conf.initMask = s.conf.initValue →
    s.env = .script (.ack w1 :: .ack status :: .ack w2 :: .ack w3 :: .ack s.conf.cfgInit :: rest) →
    exec (.init addr ch) s = .next { s with
      mode := .ready, addr := addr, ch := 0, cfg := s.conf.cfgInit, env := .script rest, outcome := some (.ok .none)
      trace := s.trace ++ [.wr addr s.conf.cmdDRST, .rd addr status, .wr addr s.conf.cmdWCFG,
        .wr addr s.conf.cfgInitW, .rd addr s.conf.cfgInit] }

/-- `40_bridge_controller.md` R104, R108, R112 on `MULTI8`, the normal run. -/
def Obligations.InitOnMulti8Succeeds : Prop :=
  ∀ (s : State) (addr ch status w1 w2 w3 w4 w5 : Byte) (k : Fin 8) (r : PollRun) (rest : List Answer),
    s.conf.variant = .multi8 → addr.toNat < 2 ^ s.conf.addrW → ch.toNat = k.val →
    status &&& s.conf.initMask = s.conf.initValue → r.ok s.conf →
    s.env = .script (.ack w1 :: .ack status :: .ack w2 :: .ack w3 :: .ack s.conf.cfgInit ::
      (r.answers ++ .ack w4 :: .ack w5 :: .ack (s.conf.checho.get k) :: rest)) →
    exec (.init addr ch) s = .next { s with
      mode := .ready, addr := addr, ch := BitVec.ofNat 3 k.val, cfg := s.conf.cfgInit, st := r.idle
      pollcnt := r.busy.length + 1, env := .script rest, outcome := some (.ok .none)
      trace := s.trace ++ ([.wr addr s.conf.cmdDRST, .rd addr status, .wr addr s.conf.cmdWCFG,
        .wr addr s.conf.cfgInitW, .rd addr s.conf.cfgInit] ++ r.trace s.conf addr ++
        [.wr addr s.conf.cmdCHSL, .wr addr (s.conf.chcode.get k), .rd addr (s.conf.checho.get k)]) }

/-- `40_bridge_controller.md` R104 and R109 for every environment: `INIT` with legal operands ends `OK` in `READY`, or
`Err(InitializationError)` in `UNINIT`; `ADDR` holds the new address either way, and the registers of the search stay.
After a failure nothing is said of `CH` and `CFG`. -/
def Obligations.InitEndsReadyOrUninit : Prop :=
  ∀ (s : State) (addr ch : Byte), addr.toNat < 2 ^ s.conf.addrW → ch.toNat < nch s.conf →
    ∃ t, exec (.init addr ch) s = .next t ∧ t.addr = addr ∧
      t.ld = s.ld ∧ t.cand = s.cand ∧ t.res = s.res ∧ t.pos = s.pos ∧ t.conf = s.conf ∧ t.inbox = s.inbox ∧
      ((t.outcome = some (.ok .none) ∧ t.mode = .ready ∧ t.ch.toNat = ch.toNat ∧ t.cfg = s.conf.cfgInit) ∨
        (t.outcome = some (.err .initialization) ∧ t.mode = .uninit))

/-- `40_bridge_controller.md` R106 to R109, R112, R124: `INIT` stops at the first answer it does not expect, with
`Err(InitializationError)` in `UNINIT`. `InitStops` lists where: any of its operations not acknowledged, an unexpected
status (by `INIT_MASK`, log 27), a configuration that is not confirmed, and on `MULTI8` a poll that times out and an
echo that differs. -/
def Obligations.InitStopsAtUnexpectedAnswer : Prop :=
  ∀ (s : State) (addr ch : Byte) (k : Fin 8) (ops : List TransportOp) (as rest : List Answer),
    addr.toNat < 2 ^ s.conf.addrW → ch.toNat = k.val → k.val < nch s.conf →
    InitStops s.conf addr k ops → AnswersGive ops as → s.env = .script (as ++ rest) →
    ∃ t, exec (.init addr ch) s = .next t ∧ t.outcome = some (.err .initialization) ∧ t.mode = .uninit ∧
      t.addr = addr ∧ t.env = .script rest ∧ t.trace = s.trace ++ ops

/-- `40_bridge_controller.md` R111: `SELCH` on `SINGLE`. -/
def Obligations.SelchOnSingleDoesNothing : Prop :=
  ∀ (s : State) (ch : Byte), s.conf.variant = .single →
    (ch = 0 → s.mode = .ready → exec (.selch ch) s = .next { s with outcome := some (.ok .none) }) ∧
    (ch ≠ 0 → exec (.selch ch) s = .next { s with outcome := some (.refused .badOperand) })

/-- `40_bridge_controller.md` R110, R112 to R114 on `MULTI8`, the normal run, whatever channel was selected before. -/
def Obligations.SelchOnMulti8Succeeds : Prop :=
  ∀ (s : State) (ch w1 w2 : Byte) (k : Fin 8) (r : PollRun) (rest : List Answer),
    s.conf.variant = .multi8 → s.mode = .ready → ch.toNat = k.val → r.ok s.conf →
    s.env = .script (r.answers ++ .ack w1 :: .ack w2 :: .ack (s.conf.checho.get k) :: rest) →
    exec (.selch ch) s = .next { s with
      ch := BitVec.ofNat 3 k.val, st := r.idle, pollcnt := r.busy.length + 1, env := .script rest
      outcome := some (.ok .none)
      trace := s.trace ++ (r.trace s.conf s.addr ++ [.wr s.addr s.conf.cmdCHSL, .wr s.addr (s.conf.chcode.get k),
        .rd s.addr (s.conf.checho.get k)]) }

/-- `40_bridge_controller.md` R112, R113: an echo that differs in any bit ends `SELCH` with `Err(InitializationError)` in
`UNINIT`. `CH` and `CFG` may then hold any value (93 U2; logs 8 and 26); nothing else changes but what the poll and the
sequence leave. -/
def Obligations.SelchEchoMismatchFails : Prop :=
  ∀ (s : State) (ch w1 w2 e : Byte) (k : Fin 8) (r : PollRun) (rest : List Answer),
    s.conf.variant = .multi8 → s.mode = .ready → ch.toNat = k.val → r.ok s.conf → e ≠ s.conf.checho.get k →
    s.env = .script (r.answers ++ .ack w1 :: .ack w2 :: .ack e :: rest) →
    ∃ anyCh anyCfg n, exec (.selch ch) s = .next { s with
      mode := .uninit, ch := anyCh, cfg := anyCfg, st := r.idle, pollcnt := r.busy.length + 1, env := .script rest
      outcome := some (.err .initialization), freeIx := n
      trace := s.trace ++ (r.trace s.conf s.addr ++ selchTrace s.conf s.addr k e) }

/-- `40_bridge_controller.md` R113 for every environment: the outcomes of `SELCH` on `MULTI8` by where it ended. -/
def Obligations.SelchOutcomesByPhase : Prop :=
  ∀ (s : State) (ch : Byte), s.conf.variant = .multi8 → s.mode = .ready → ch.toNat < 8 →
    (∀ e t, pollUntilIdle s = .error e t → (e = .timeout ∨ e = .transport) ∧
      ∃ u, exec (.selch ch) s = .next u ∧ u.outcome = some (.err e) ∧ u.mode = .dirty ∧ u.ch = s.ch ∧
        u.trace = t.trace) ∧
    ∀ v t, pollUntilIdle s = .ok v t →
      (∀ u, selchSequence (channelBits ch) t = .ok () u → ∃ x, exec (.selch ch) s = .next x ∧
        x.outcome = some (.ok .none) ∧ x.mode = .ready ∧ x.ch.toNat = ch.toNat ∧ x.trace = u.trace) ∧
      ∀ e u, selchSequence (channelBits ch) t = .error e u → (e = .transport ∨ e = .initialization) ∧
        ∃ x, exec (.selch ch) s = .next x ∧ x.outcome = some (.err e) ∧ x.mode = .uninit ∧ x.trace = u.trace

/-- `40_bridge_controller.md` R103 for each bridge command of `30_encoding.md` R88, in `READY` and `DIRTY`: its bytes
are written one after the other, nothing else of the block changes, and if the first write fails the second is not
issued. In `UNINIT` it is refused, since only `INIT` and `CRC8` do anything there (`10_state.md` R38). That a bridge
command is a step of its own, leaves `MODE` and reports its error or refusal as the outcome is the model's choice
(log 9); so are `1WSB`, which the block never emits (log 10), that every parameter byte is written (log 24), and `CHSL`
on `SINGLE` (log 25). -/
def Obligations.BridgeCommandsWriteTheirBytes : Prop :=
  (∀ (s : State) (i : Instr) (code w : Byte) (rest : List Answer),
    (i, code) ∈ [(Instr.drst, s.conf.cmdDRST), (.w1rs, s.conf.cmd1WRS), (.w1rb, s.conf.cmd1WRB)] →
    (s.mode = .uninit → exec i s = .next { s with outcome := some (.refused .notReady) }) ∧
    (s.mode ≠ .uninit → s.env = .script (.ack w :: rest) → exec i s = .next { s with
      env := .script rest, outcome := some (.ok .none), trace := s.trace ++ [.wr s.addr code] }) ∧
    (s.mode ≠ .uninit → s.env = .script (.nack :: rest) → exec i s = .next { s with
      env := .script rest, outcome := some (.err .transport), trace := s.trace ++ [.failed] })) ∧
  ∀ (s : State) (i : Instr) (code p w1 w2 : Byte) (rest : List Answer),
    (i, code) ∈ [(Instr.srp p, s.conf.cmdSRP), (.wcfg p, s.conf.cmdWCFG), (.chsl p, s.conf.cmdCHSL),
      (.w1wb p, s.conf.cmd1WWB), (.w1t p, s.conf.cmd1WT), (.w1sb p, s.conf.cmd1WSB)] →
    (s.mode = .uninit → exec i s = .next { s with outcome := some (.refused .notReady) }) ∧
    (s.mode ≠ .uninit → s.env = .script (.ack w1 :: .ack w2 :: rest) → exec i s = .next { s with
      env := .script rest, outcome := some (.ok .none), trace := s.trace ++ [.wr s.addr code, .wr s.addr p] }) ∧
    (s.mode ≠ .uninit → s.env = .script (.nack :: rest) → exec i s = .next { s with
      env := .script rest, outcome := some (.err .transport), trace := s.trace ++ [.failed] }) ∧
    (s.mode ≠ .uninit → s.env = .script (.ack w1 :: .nack :: rest) → exec i s = .next { s with
      env := .script rest, outcome := some (.err .transport)
      trace := s.trace ++ [.wr s.addr code, .failed] })

/-! ### OneWireBus -/

/-- `41_onewire_bus.md` R130, R131: `OWRESET` in `READY` or `DIRTY`, the normal run: the presence bit is the value and
`MODE` becomes `READY`. -/
def Obligations.OwresetReportsPresence : Prop :=
  ∀ (s : State) (r q : PollRun) (w : Byte) (rest : List Answer), s.mode = .ready ∨ s.mode = .dirty →
    r.ok s.conf → q.ok s.conf → s.env = .script (r.answers ++ .ack w :: (q.answers ++ rest)) →
    exec .owreset s = .next { afterPolls s
        (r.trace s.conf s.addr ++ .wr s.addr s.conf.cmd1WRS :: q.trace s.conf s.addr) q rest with
      mode := .ready, outcome := some (.ok (.bit (presenceFlag s.conf q.idle))) }

/-- `41_onewire_bus.md` R132, R133: `OWWRITE`, the normal run, for every byte. -/
def Obligations.OwwriteSendsByte : Prop :=
  ∀ (s : State) (b : Byte) (w : WriteRun) (rest : List Answer), s.mode = .ready → w.ok s.conf →
    s.env = .script (w.answers ++ rest) →
    exec (.owwrite b) s = .next { afterPolls s (w.trace s.conf s.addr s.conf.cmd1WWB b) w.after rest with
      outcome := some (.ok .none) }

/-- `41_onewire_bus.md` R134, R135: `OWREAD`, the normal run: the value is the byte fetched through `PTR_DATA`. -/
def Obligations.OwreadFetchesByte : Prop :=
  ∀ (s : State) (r q : PollRun) (w w1 w2 v : Byte) (rest : List Answer), s.mode = .ready →
    r.ok s.conf → q.ok s.conf →
    s.env = .script (r.answers ++ .ack w :: (q.answers ++ .ack w1 :: .ack w2 :: .ack v :: rest)) →
    exec .owread s = .next { afterPolls s
        (r.trace s.conf s.addr ++ .wr s.addr s.conf.cmd1WRB :: (q.trace s.conf s.addr ++
          [.wr s.addr s.conf.cmdSRP, .wr s.addr s.conf.ptrData, .rd s.addr v])) q rest with
      outcome := some (.ok (.byte v)) }

/-- `41_onewire_bus.md` R136, R137: without presence `MATCHROM` writes nothing more and returns 0. -/
def Obligations.MatchromWithoutPresence : Prop :=
  ∀ (s : State) (id : Identifier) (r q : PollRun) (w : Byte) (rest : List Answer), s.mode = .ready →
    r.ok s.conf → q.ok s.conf → presenceFlag s.conf q.idle = false →
    s.env = .script (r.answers ++ .ack w :: (q.answers ++ rest)) →
    exec (.matchrom id) s = .next { afterPolls s
        (r.trace s.conf s.addr ++ .wr s.addr s.conf.cmd1WRS :: q.trace s.conf s.addr) q rest with
      outcome := some (.ok (.bit false)) }

/-- `41_onewire_bus.md` R136, R137: with presence `MATCHROM` writes the Match-ROM byte and the eight identifier bytes
in index order, and returns 1, whatever the identifier's checksum (R138). -/
def Obligations.MatchromSendsNineBytes : Prop :=
  ∀ (s : State) (id : Identifier) (r q : PollRun) (w : Byte) (ws : List WriteRun) (last : WriteRun)
    (rest : List Answer), s.mode = .ready → r.ok s.conf → q.ok s.conf → presenceFlag s.conf q.idle = true →
    ws.length = 8 → (∀ x ∈ ws, x.ok s.conf) → last.ok s.conf →
    s.env = .script (r.answers ++ .ack w :: (q.answers ++ (ws.flatMap WriteRun.answers ++ (last.answers ++ rest)))) →
    exec (.matchrom id) s = .next { afterPolls s
        (r.trace s.conf s.addr ++ .wr s.addr s.conf.cmd1WRS :: (q.trace s.conf s.addr ++
          writesTrace s.conf s.addr (s.conf.romMatch :: id.toList) (ws ++ [last]))) last.after rest with
      outcome := some (.ok (.bit true)) }

/-- `41_onewire_bus.md` R139, for every environment: the trace of `MATCHROM id` then `OWREAD`, with the poll traffic
removed, when presence is seen and nothing fails. -/
def Obligations.MatchromThenOwreadOrder : Prop :=
  ∀ (s t u : State) (id : Identifier) (v : Byte), codesDistinct s.conf = true → s.mode = .ready →
    exec (.matchrom id) s = .next t → t.outcome = some (.ok (.bit true)) →
    exec .owread t = .next u → u.outcome = some (.ok (.byte v)) →
    ∃ ops, u.trace = s.trace ++ ops ∧ withoutPolls s.conf .command ops =
      .wr s.addr s.conf.cmd1WRS ::
        ((s.conf.romMatch :: id.toList).flatMap (fun b => [.wr s.addr s.conf.cmd1WWB, .wr s.addr b]) ++
          [.wr s.addr s.conf.cmd1WRB])

/-- `60_exceptions.md` R191 with R181 to R184 and `41_onewire_bus.md` R129, for every environment: `MODE` after a host
operation, by its outcome; and where an operation times out (R183, R194). A host operation whose last transport
operation is a busy status read of a poll made `POLL_MAX` of them and ends in `Err(PeripheralError(Timeout))` and
`DIRTY`, `INIT` in `Err(InitializationError)` and `UNINIT`; no other operation ends in a timeout, and nothing but a
further read follows a busy status read. -/
def Obligations.ModeMovesByOutcome : Prop :=
  ∀ (i : Instr) (s t : State), isHostOp i = true → exec i s = .next t →
    (∀ r, t.outcome = some (.refused r) → t.mode = s.mode) ∧
    (∀ v, t.outcome = some (.ok v) →
      ((∃ addr ch, i = .init addr ch) ∨ i = .owreset → t.mode = .ready) ∧
      ((∀ addr ch, i ≠ .init addr ch) → i ≠ .owreset → t.mode = s.mode)) ∧
    (∀ e, t.outcome = some (.err e) →
      ((∃ addr ch, i = .init addr ch) ∧ e = .initialization ∧ t.mode = .uninit) ∨
      ((∃ ch, i = .selch ch) ∧ s.mode = .ready ∧ ((e = .timeout ∧ t.mode = .dirty) ∨
        (e = .initialization ∧ t.mode = .uninit) ∨ (e = .transport ∧ (t.mode = .dirty ∨ t.mode = .uninit)))) ∨
      ((i = .owreset ∨ (∃ b, i = .owwrite b) ∨ i = .owread ∨ (∃ id, i = .matchrom id) ∨ i = .search) ∧
        (e = .transport ∨ e = .timeout) ∧ t.mode = .dirty) ∨
      (i = .search ∧ e = .noDevice ∧ s.mode = .ready ∧ t.mode = .ready)) ∧
    (codesDistinct s.conf = true → pointersDistinct s.conf = true → ∀ ops, t.trace = s.trace ++ ops →
      (lastRead s.conf ops = .busy → endsInTimeout s.conf t.addr ops ∧
        ((∃ addr ch, i = .init addr ch) → t.outcome = some (.err .initialization) ∧ t.mode = .uninit) ∧
        ((∀ addr ch, i ≠ .init addr ch) → t.outcome = some (.err .timeout) ∧ t.mode = .dirty)) ∧
      (t.outcome = some (.err .timeout) → 0 < s.conf.pollMax → lastRead s.conf ops = .busy) ∧
      ∀ p op q, ops = p ++ op :: q → lastRead s.conf p = .busy → ∀ a b, op ≠ .wr a b)

/-- `41_onewire_bus.md` R140: the triplet, the normal run: its direction byte, and the two bits of the status byte
after it. -/
def Obligations.TripletReturnsBothBits : Prop :=
  ∀ (s : State) (dir : Bool) (w : WriteRun) (rest : List Answer), w.ok s.conf → s.env = .script (w.answers ++ rest) →
    searchTriplet dir s = .ok (idBitFlag s.conf w.after.idle, complementBitFlag s.conf w.after.idle)
      (afterPolls s (w.trace s.conf s.addr s.conf.cmd1WT (if dir then 0x80 else 0x00)) w.after rest)

/-- `30_encoding.md` R92 with `41_onewire_bus.md` R132: the ROM commands run as steps of their own, the normal run in
`READY` and `DIRTY`; in `UNINIT` they are refused (`10_state.md` R38). That they are steps, leave `MODE` and report a
refusal as the outcome is the model's choice (log 9). -/
def Obligations.RomCommandsSendTheirBytes : Prop :=
  (∀ (s : State) (i : Instr), i = .romSearch ∨ (∃ id, i = .romMatch id) → s.mode = .uninit →
    exec i s = .next { s with outcome := some (.refused .notReady) }) ∧
  (∀ (s : State) (w : WriteRun) (rest : List Answer), s.mode ≠ .uninit → w.ok s.conf →
    s.env = .script (w.answers ++ rest) →
    exec .romSearch s = .next { afterPolls s
        (w.trace s.conf s.addr s.conf.cmd1WWB s.conf.romSearch) w.after rest with outcome := some (.ok .none) }) ∧
  ∀ (s : State) (id : Identifier) (ws : List WriteRun) (last : WriteRun) (rest : List Answer), s.mode ≠ .uninit →
    ws.length = 8 → (∀ x ∈ ws, x.ok s.conf) → last.ok s.conf →
    s.env = .script (ws.flatMap WriteRun.answers ++ (last.answers ++ rest)) →
    exec (.romMatch id) s = .next { afterPolls s
        (writesTrace s.conf s.addr (s.conf.romMatch :: id.toList) (ws ++ [last])) last.after rest with
      outcome := some (.ok .none) }

/-! ### ROMSearchEngine -/

/-- `42_rom_search.md` R152: an empty bus gives the empty set after one bus reset. -/
def Obligations.SearchOfEmptyBusIsEmpty : Prop :=
  ∀ (s : State) (r q : PollRun) (w : Byte) (rest : List Answer), s.mode = .ready → 0 < s.conf.searchFuel →
    r.ok s.conf → q.ok s.conf → presenceFlag s.conf q.idle = false →
    s.env = .script (r.answers ++ .ack w :: (q.answers ++ rest)) →
    exec .search s = .next { afterPolls s
        (r.trace s.conf s.addr ++ .wr s.addr s.conf.cmd1WRS :: q.trace s.conf s.addr) q rest with
      res := [], ld := -1, cand := #v[0, 0, 0, 0, 0, 0, 0, 0], outcome := some (.ok (.ids [])) }

/-- `42_rom_search.md` R153 to R155, one position of step 3, the normal run: the direction supplied, the bit taken, the
discrepancy recorded, and the (1, 1) answer, which leaves the candidate alone. -/
def Obligations.SearchStepFollowsTheThreeCases : Prop :=
  ∀ (s : State) (p : Nat) (newLd : Int) (w : WriteRun) (rest : List Answer), p < 64 → w.ok s.conf →
    s.env = .script (w.answers ++ rest) →
    let dir := if (p : Int) < s.ld then idBit s.cand p else if (p : Int) = s.ld then true else false
    let idb := idBitFlag s.conf w.after.idle
    let cmp := complementBitFlag s.conf w.after.idle
    let t := { afterPolls s (w.trace s.conf s.addr s.conf.cmd1WT (if dir then 0x80 else 0x00)) w.after rest with
      pos := p }
    (idb = true → cmp = true → searchStep p newLd s = .error .noDevice t) ∧
    ∀ taken, (idb = false ∧ cmp = false ∧ taken = dir) ∨ (idb ≠ cmp ∧ taken = idb) →
      ∃ cand, searchStep p newLd s =
          .ok (if idb = false ∧ cmp = false ∧ taken = false then (p : Int) else newLd) { t with cand := cand } ∧
        ∀ i < 64, idBit cand i = if i = p then taken else idBit s.cand i

/-- `10_state.md` R28 and `42_rom_search.md` R155 to R157, R159, for every environment: whatever a `SEARCH` leaves in
`RES` is valid and without duplicates, and a set it delivers is `RES`. A triplet that answers (1, 1) ends the whole
`SEARCH`: it is the last thing in the trace, the outcome is `Err(PeripheralError(NoDevice))`, so that nothing is
delivered, and `MODE` stays; no other `SEARCH` ends so. -/
def Obligations.SearchDeliversValidIdentifiers : Prop :=
  ∀ s t : State, s.mode = .ready → exec .search s = .next t →
    (∀ m ∈ t.res, crc8 s.conf.crcPoly (m.toList.take 7) = idByte m 7) ∧ t.res.Nodup ∧
    (∀ v, t.outcome = some (.ok v) → v = .ids t.res) ∧
    (codesDistinct s.conf = true → ∀ ops, t.trace = s.trace ++ ops →
      (∀ p op q, ops = p ++ op :: q → lastRead s.conf p ≠ .noDevice) ∧
      (lastRead s.conf ops = .noDevice ↔ t.outcome = some (.err .noDevice)) ∧
      (lastRead s.conf ops = .noDevice → t.mode = .ready))

/-! ### Against the reference environment -/

/-- `21_reference_environment.md` R69: a poll succeeds after `e.busy + 1` reads and clears nothing but the busy
count. -/
def Obligations.PollOnReferenceEnvironment : Prop :=
  ∀ (s : State) (e : RefEnv), RefReady s e → codesDistinct s.conf = true →
    ∃ v t, pollUntilIdle s = .ok v t ∧ t.pollcnt = e.busy + 1 ∧ v = withBit e.st s.conf.st1WB false ∧ t.st = v ∧
      t.env = .ref { e with busy := 0, ptr := .status }

/-- `21_reference_environment.md` R70: `INIT` succeeds, with the default codes; on `MULTI8` for a bridge of eight
channels. -/
def Obligations.InitOnReferenceEnvironment : Prop :=
  ∀ (s : State) (e : RefEnv) (v : Variant) (n : Nat) (addr ch : Byte), s.conf = defaultConf v n → 0 < n →
    s.env = .ref e → e.ack = true → e.addr = addr → e.failAt = none → e.pend = .none → (v = .multi8 → e.nch = 8) →
    addr.toNat < 128 → ch.toNat < nch s.conf →
    ∃ t f, exec (.init addr ch) s = .next t ∧ t.outcome = some (.ok .none) ∧ t.mode = .ready ∧ t.addr = addr ∧
      t.ch.toNat = ch.toNat ∧ t.cfg = 0x01 ∧ t.env = .ref f ∧ f.cfg = 0x1 ∧ f.chan = t.ch ∧ f.dev = e.dev

/-- `OWRESET`, `OWWRITE` and `OWREAD` on the reference environment. `21_reference_environment.md` R66, R70: `OWRESET`
returns presence exactly when a device is attached to the selected channel, and every one of them takes part in the next
ROM command. R67: the byte of `OWWRITE` is a ROM command after a reset with presence, narrows the participants in a
Match ROM, and moves nothing otherwise. R65, R63: `OWREAD` takes the next byte of the feed, or 0xFF, into the read-data
register and returns it. -/
def Obligations.OneWirePrimitivesOnReferenceEnvironment : Prop :=
  (∀ (s : State) (e : RefEnv), RefReady s e → configWellFormed s.conf = true → s.mode ≠ .uninit →
    ∃ t f, exec .owreset s = .next t ∧ t.outcome = some (.ok (.bit (!(refAttached e).isEmpty))) ∧ t.mode = .ready ∧
      t.env = .ref f ∧ f.part = refAttached e ∧ f.dev = e.dev) ∧
  (∀ (s : State) (e : RefEnv) (b : Byte), RefReady s e → configWellFormed s.conf = true → s.mode = .ready →
    ∃ t f, exec (.owwrite b) s = .next t ∧ t.outcome = some (.ok .none) ∧ t.mode = .ready ∧ t.env = .ref f ∧
      f.busy = 0 ∧ f.ptr = .status ∧ f.rd = e.rd ∧ f.feed = e.feed ∧ f.dev = e.dev ∧
      (e.rom = .cmd → f.part = e.part ∧ (b = s.conf.romSearch → f.rom = .search ∧ f.k = 0) ∧
        (b = s.conf.romMatch → f.rom = .matching ∧ f.k = 0) ∧
        (b ∉ [s.conf.romSearch, s.conf.romMatch] → f.rom = .func)) ∧
      (e.rom = .matching → (∀ x, x ∈ f.part ↔ x ∈ e.part ∧ idByte x e.k = b) ∧ f.k = e.k + 1 ∧
        (f.rom = .func ↔ e.k = 7) ∧ (f.rom = .matching ↔ e.k ≠ 7)) ∧
      (e.rom = .idle ∨ e.rom = .search ∨ e.rom = .func → f.rom = e.rom ∧ f.part = e.part ∧ f.k = e.k)) ∧
  ∀ (s : State) (e : RefEnv), RefReady s e → configWellFormed s.conf = true → s.mode = .ready →
    ∃ t f v, exec .owread s = .next t ∧ t.outcome = some (.ok (.byte v)) ∧ t.mode = .ready ∧ t.env = .ref f ∧
      (∀ b bs, e.feed = b :: bs → v = b ∧ f.feed = bs) ∧ (e.feed = [] → v = 0xFF ∧ f.feed = []) ∧ f.rd = v ∧
      f.ptr = .data ∧ f.busy = 0 ∧ f.rom = e.rom ∧ f.part = e.part ∧ f.k = e.k ∧ f.dev = e.dev

/-- `21_reference_environment.md` R67, R70: `MATCHROM` leaves exactly the addressed peripheral taking part, if it is
attached. -/
def Obligations.MatchromOnReferenceEnvironment : Prop :=
  ∀ (s : State) (e : RefEnv) (id : Identifier), RefReady s e → configWellFormed s.conf = true →
    s.mode = .ready → refAttached e ≠ [] →
    ∃ t f, exec (.matchrom id) s = .next t ∧ t.outcome = some (.ok (.bit true)) ∧ t.mode = .ready ∧
      t.env = .ref f ∧ f.rom = .func ∧ ∀ x, x ∈ f.part ↔ x ∈ refAttached e ∧ x = id

/-- `21_reference_environment.md` R68 through the bridge command `1WT` on the reference environment, in `READY` and
`DIRTY`: the wired-AND of the participants' bits and of their complements stand in the status byte, and those whose bit
is not the branch taken drop out. That `1WT` runs as a step of its own that ends `OK` and leaves `MODE` is the model's
choice (log 9), and so is that any parameter byte is written (log 24). -/
def Obligations.TripletOnReferenceEnvironment : Prop :=
  ∀ (s : State) (e : RefEnv) (d : Byte), RefReady s e → configWellFormed s.conf = true → s.mode ≠ .uninit →
    e.rom = .search →
    ∃ t f, exec (.w1t d) s = .next t ∧ t.outcome = some (.ok .none) ∧ t.mode = s.mode ∧ t.env = .ref f ∧
      f.busy = e.busyN ∧ f.ptr = .status ∧ f.k = e.k + 1 ∧
      (idBitFlag s.conf f.st = true ↔ ∀ x ∈ e.part, idBit x e.k = true) ∧
      (complementBitFlag s.conf f.st = true ↔ ∀ x ∈ e.part, idBit x e.k = false) ∧
      (∀ x, x ∈ f.part ↔ x ∈ e.part ∧
        ((∀ y ∈ e.part, idBit y e.k = idBit x e.k) ∨ idBit x e.k = d.getLsbD 7))

/-- `21_reference_environment.md` R62 and R65 through the bridge command `DRST` on the reference environment, in `READY`
and `DIRTY`: acknowledged, it resets the bridge chip; not acknowledged, it changes nothing and is a `TransportError`.
That `DRST` runs as a step of its own, reports that error as its outcome and leaves `MODE` is the model's choice
(log 9). -/
def Obligations.DeviceResetOnReferenceEnvironment : Prop :=
  ∀ (s : State) (e : RefEnv), s.mode ≠ .uninit → s.env = .ref e → e.pend = .none → e.failAt = none →
    (e.ack = true → e.addr = s.addr → exec .drst s = .next { s with
      env := .ref { e with
        st := statusAfterDeviceReset s.conf, cfg := 0, chan := 0, ptr := .status, busy := 0, rom := .idle, part := [] }
      outcome := some (.ok .none), trace := s.trace ++ [.wr s.addr s.conf.cmdDRST] }) ∧
    (e.ack = false ∨ e.addr ≠ s.addr → exec .drst s = .next { s with
      outcome := some (.err .transport), trace := s.trace ++ [.failed] })

/-- `21_reference_environment.md` R64 through the bridge commands `SRP`, `WCFG` and `CHSL` with any parameter byte on the
reference environment, in `READY` and `DIRTY`: what the reference environment takes of it, and what it ignores. That
these commands run as steps of their own that end `OK` and leave `MODE` is the model's choice (log 9), and so are that
any parameter byte is written (log 24) and that `CHSL` is written on `SINGLE` too (log 25). -/
def Obligations.ParameterCommandsOnReferenceEnvironment : Prop :=
  ∀ (s : State) (e : RefEnv) (p : Byte), RefReady s e → configWellFormed s.conf = true → s.mode ≠ .uninit →
    (∃ r, exec (.srp p) s = .next { s with
        env := .ref { e with ptr := r }
        outcome := some (.ok .none), trace := s.trace ++ [.wr s.addr s.conf.cmdSRP, .wr s.addr p] } ∧
      (p = s.conf.ptrStatus → r = .status) ∧ (p = s.conf.ptrData → r = .data) ∧
      (p = s.conf.ptrChannel → r = .channel) ∧ (p = s.conf.ptrConfig → r = .config) ∧
      (p ∉ [s.conf.ptrStatus, s.conf.ptrData, s.conf.ptrChannel, s.conf.ptrConfig] → r = e.ptr)) ∧
    (∃ f st, exec (.wcfg p) s = .next { s with
        env := .ref { e with cfg := f, st := st, ptr := .config }
        outcome := some (.ok .none), trace := s.trace ++ [.wr s.addr s.conf.cmdWCFG, .wr s.addr p] } ∧
      (p.extractLsb' 4 4 = ~~~ p.extractLsb' 0 4 → f = p.extractLsb' 0 4 ∧
        ∀ i : Fin 8, bitOf st i = if i = s.conf.stRST then false else bitOf e.st i) ∧
      (p.extractLsb' 4 4 ≠ ~~~ p.extractLsb' 0 4 → f = e.cfg ∧ st = e.st)) ∧
    ∃ ch, exec (.chsl p) s = .next { s with
        env := .ref { e with chan := ch, ptr := .channel }
        outcome := some (.ok .none), trace := s.trace ++ [.wr s.addr s.conf.cmdCHSL, .wr s.addr p] } ∧
      (∀ k : Fin 8, k.val < e.nch → p = s.conf.chcode.get k → ch = BitVec.ofNat 3 k.val) ∧
      ((∀ k : Fin 8, k.val < e.nch → p ≠ s.conf.chcode.get k) → ch = e.chan)

/-- On the reference environment, `42_rom_search.md` R162 (a): with exactly one device of identifier `x`, valid, `SEARCH`
returns exactly `x`, in one pass that leaves `LD = -1` and `CAND = x`. -/
def Obligations.SearchOneDeviceOnReferenceEnvironment : Prop :=
  ∀ (s : State) (e : RefEnv) (x : Identifier), RefReady s e → configWellFormed s.conf = true → s.mode = .ready →
    0 < s.conf.searchFuel → refAttached e = [x] → idValid s.conf x = true →
    ∃ t, exec .search s = .next t ∧ t.outcome = some (.ok (.ids [x])) ∧ t.mode = .ready ∧ t.ld = -1 ∧ t.cand = x ∧
      t.pos = 63 ∧ t.res = [x]

/-- On the reference environment, `21_reference_environment.md` R70, `42_rom_search.md` R160, R162 (b): `SEARCH` returns
exactly the attached identifiers that are valid, each once, when the fuel is no less than their number (log 7). -/
def Obligations.SearchAttachedDevicesOnReferenceEnvironment : Prop :=
  ∀ (s : State) (e : RefEnv), RefReady s e → configWellFormed s.conf = true → s.mode = .ready →
    0 < s.conf.searchFuel → (refAttached e).length ≤ s.conf.searchFuel →
    ∃ t l, exec .search s = .next t ∧ t.outcome = some (.ok (.ids l)) ∧ t.mode = .ready ∧ t.res = l ∧ l.Nodup ∧
      ∀ x, x ∈ l ↔ x ∈ refAttached e ∧ idValid s.conf x = true

/-- On the reference environment, `42_rom_search.md` R160, `21_reference_environment.md` R70: the identifiers are
discovered in increasing order of their bit sequences. -/
def Obligations.SearchOrderOnReferenceEnvironment : Prop :=
  ∀ (s t : State) (e : RefEnv) (l : List Identifier), RefReady s e → configWellFormed s.conf = true →
    s.mode = .ready → exec .search s = .next t → t.outcome = some (.ok (.ids l)) → l.Pairwise IdBefore
end

