-- ==== Sys2Proof/Laws/State.lean ====
section
/-! SUPPORT. One lemma per field per update of the state. -/

namespace Sys2Proof.Machine.State

section
variable (s : State) (v : Byte)

@[simp] theorem setAddr_conf : (s.setAddr v).conf = s.conf := rfl
@[simp] theorem setAddr_addr : (s.setAddr v).addr = v := rfl
@[simp] theorem setAddr_ch : (s.setAddr v).ch = s.ch := rfl
@[simp] theorem setAddr_cfg : (s.setAddr v).cfg = s.cfg := rfl
@[simp] theorem setAddr_mode : (s.setAddr v).mode = s.mode := rfl
@[simp] theorem setAddr_ld : (s.setAddr v).ld = s.ld := rfl
@[simp] theorem setAddr_cand : (s.setAddr v).cand = s.cand := rfl
@[simp] theorem setAddr_res : (s.setAddr v).res = s.res := rfl
@[simp] theorem setAddr_pos : (s.setAddr v).pos = s.pos := rfl
@[simp] theorem setAddr_pollcnt : (s.setAddr v).pollcnt = s.pollcnt := rfl
@[simp] theorem setAddr_st : (s.setAddr v).st = s.st := rfl
@[simp] theorem setAddr_env : (s.setAddr v).env = s.env := rfl
@[simp] theorem setAddr_inbox : (s.setAddr v).inbox = s.inbox := rfl
@[simp] theorem setAddr_outcome : (s.setAddr v).outcome = s.outcome := rfl
@[simp] theorem setAddr_trace : (s.setAddr v).trace = s.trace := rfl
@[simp] theorem setAddr_freeIx : (s.setAddr v).freeIx = s.freeIx := rfl

end

section
variable (s : State) (v : BitVec 3)

@[simp] theorem setCh_conf : (s.setCh v).conf = s.conf := rfl
@[simp] theorem setCh_addr : (s.setCh v).addr = s.addr := rfl
@[simp] theorem setCh_ch : (s.setCh v).ch = v := rfl
@[simp] theorem setCh_cfg : (s.setCh v).cfg = s.cfg := rfl
@[simp] theorem setCh_mode : (s.setCh v).mode = s.mode := rfl
@[simp] theorem setCh_ld : (s.setCh v).ld = s.ld := rfl
@[simp] theorem setCh_cand : (s.setCh v).cand = s.cand := rfl
@[simp] theorem setCh_res : (s.setCh v).res = s.res := rfl
@[simp] theorem setCh_pos : (s.setCh v).pos = s.pos := rfl
@[simp] theorem setCh_pollcnt : (s.setCh v).pollcnt = s.pollcnt := rfl
@[simp] theorem setCh_st : (s.setCh v).st = s.st := rfl
@[simp] theorem setCh_env : (s.setCh v).env = s.env := rfl
@[simp] theorem setCh_inbox : (s.setCh v).inbox = s.inbox := rfl
@[simp] theorem setCh_outcome : (s.setCh v).outcome = s.outcome := rfl
@[simp] theorem setCh_trace : (s.setCh v).trace = s.trace := rfl
@[simp] theorem setCh_freeIx : (s.setCh v).freeIx = s.freeIx := rfl

end

section
variable (s : State) (v : Byte)

@[simp] theorem setCfg_conf : (s.setCfg v).conf = s.conf := rfl
@[simp] theorem setCfg_addr : (s.setCfg v).addr = s.addr := rfl
@[simp] theorem setCfg_ch : (s.setCfg v).ch = s.ch := rfl
@[simp] theorem setCfg_cfg : (s.setCfg v).cfg = v := rfl
@[simp] theorem setCfg_mode : (s.setCfg v).mode = s.mode := rfl
@[simp] theorem setCfg_ld : (s.setCfg v).ld = s.ld := rfl
@[simp] theorem setCfg_cand : (s.setCfg v).cand = s.cand := rfl
@[simp] theorem setCfg_res : (s.setCfg v).res = s.res := rfl
@[simp] theorem setCfg_pos : (s.setCfg v).pos = s.pos := rfl
@[simp] theorem setCfg_pollcnt : (s.setCfg v).pollcnt = s.pollcnt := rfl
@[simp] theorem setCfg_st : (s.setCfg v).st = s.st := rfl
@[simp] theorem setCfg_env : (s.setCfg v).env = s.env := rfl
@[simp] theorem setCfg_inbox : (s.setCfg v).inbox = s.inbox := rfl
@[simp] theorem setCfg_outcome : (s.setCfg v).outcome = s.outcome := rfl
@[simp] theorem setCfg_trace : (s.setCfg v).trace = s.trace := rfl
@[simp] theorem setCfg_freeIx : (s.setCfg v).freeIx = s.freeIx := rfl

end

section
variable (s : State) (v : Mode)

@[simp] theorem setMode_conf : (s.setMode v).conf = s.conf := rfl
@[simp] theorem setMode_addr : (s.setMode v).addr = s.addr := rfl
@[simp] theorem setMode_ch : (s.setMode v).ch = s.ch := rfl
@[simp] theorem setMode_cfg : (s.setMode v).cfg = s.cfg := rfl
@[simp] theorem setMode_mode : (s.setMode v).mode = v := rfl
@[simp] theorem setMode_ld : (s.setMode v).ld = s.ld := rfl
@[simp] theorem setMode_cand : (s.setMode v).cand = s.cand := rfl
@[simp] theorem setMode_res : (s.setMode v).res = s.res := rfl
@[simp] theorem setMode_pos : (s.setMode v).pos = s.pos := rfl
@[simp] theorem setMode_pollcnt : (s.setMode v).pollcnt = s.pollcnt := rfl
@[simp] theorem setMode_st : (s.setMode v).st = s.st := rfl
@[simp] theorem setMode_env : (s.setMode v).env = s.env := rfl
@[simp] theorem setMode_inbox : (s.setMode v).inbox = s.inbox := rfl
@[simp] theorem setMode_outcome : (s.setMode v).outcome = s.outcome := rfl
@[simp] theorem setMode_trace : (s.setMode v).trace = s.trace := rfl
@[simp] theorem setMode_freeIx : (s.setMode v).freeIx = s.freeIx := rfl

end

section
variable (s : State) (v : Int)

@[simp] theorem setLd_conf : (s.setLd v).conf = s.conf := rfl
@[simp] theorem setLd_addr : (s.setLd v).addr = s.addr := rfl
@[simp] theorem setLd_ch : (s.setLd v).ch = s.ch := rfl
@[simp] theorem setLd_cfg : (s.setLd v).cfg = s.cfg := rfl
@[simp] theorem setLd_mode : (s.setLd v).mode = s.mode := rfl
@[simp] theorem setLd_ld : (s.setLd v).ld = v := rfl
@[simp] theorem setLd_cand : (s.setLd v).cand = s.cand := rfl
@[simp] theorem setLd_res : (s.setLd v).res = s.res := rfl
@[simp] theorem setLd_pos : (s.setLd v).pos = s.pos := rfl
@[simp] theorem setLd_pollcnt : (s.setLd v).pollcnt = s.pollcnt := rfl
@[simp] theorem setLd_st : (s.setLd v).st = s.st := rfl
@[simp] theorem setLd_env : (s.setLd v).env = s.env := rfl
@[simp] theorem setLd_inbox : (s.setLd v).inbox = s.inbox := rfl
@[simp] theorem setLd_outcome : (s.setLd v).outcome = s.outcome := rfl
@[simp] theorem setLd_trace : (s.setLd v).trace = s.trace := rfl
@[simp] theorem setLd_freeIx : (s.setLd v).freeIx = s.freeIx := rfl

end

section
variable (s : State) (v : Identifier)

@[simp] theorem setCand_conf : (s.setCand v).conf = s.conf := rfl
@[simp] theorem setCand_addr : (s.setCand v).addr = s.addr := rfl
@[simp] theorem setCand_ch : (s.setCand v).ch = s.ch := rfl
@[simp] theorem setCand_cfg : (s.setCand v).cfg = s.cfg := rfl
@[simp] theorem setCand_mode : (s.setCand v).mode = s.mode := rfl
@[simp] theorem setCand_ld : (s.setCand v).ld = s.ld := rfl
@[simp] theorem setCand_cand : (s.setCand v).cand = v := rfl
@[simp] theorem setCand_res : (s.setCand v).res = s.res := rfl
@[simp] theorem setCand_pos : (s.setCand v).pos = s.pos := rfl
@[simp] theorem setCand_pollcnt : (s.setCand v).pollcnt = s.pollcnt := rfl
@[simp] theorem setCand_st : (s.setCand v).st = s.st := rfl
@[simp] theorem setCand_env : (s.setCand v).env = s.env := rfl
@[simp] theorem setCand_inbox : (s.setCand v).inbox = s.inbox := rfl
@[simp] theorem setCand_outcome : (s.setCand v).outcome = s.outcome := rfl
@[simp] theorem setCand_trace : (s.setCand v).trace = s.trace := rfl
@[simp] theorem setCand_freeIx : (s.setCand v).freeIx = s.freeIx := rfl

end

section
variable (s : State) (v : List Identifier)

@[simp] theorem setRes_conf : (s.setRes v).conf = s.conf := rfl
@[simp] theorem setRes_addr : (s.setRes v).addr = s.addr := rfl
@[simp] theorem setRes_ch : (s.setRes v).ch = s.ch := rfl
@[simp] theorem setRes_cfg : (s.setRes v).cfg = s.cfg := rfl
@[simp] theorem setRes_mode : (s.setRes v).mode = s.mode := rfl
@[simp] theorem setRes_ld : (s.setRes v).ld = s.ld := rfl
@[simp] theorem setRes_cand : (s.setRes v).cand = s.cand := rfl
@[simp] theorem setRes_res : (s.setRes v).res = v := rfl
@[simp] theorem setRes_pos : (s.setRes v).pos = s.pos := rfl
@[simp] theorem setRes_pollcnt : (s.setRes v).pollcnt = s.pollcnt := rfl
@[simp] theorem setRes_st : (s.setRes v).st = s.st := rfl
@[simp] theorem setRes_env : (s.setRes v).env = s.env := rfl
@[simp] theorem setRes_inbox : (s.setRes v).inbox = s.inbox := rfl
@[simp] theorem setRes_outcome : (s.setRes v).outcome = s.outcome := rfl
@[simp] theorem setRes_trace : (s.setRes v).trace = s.trace := rfl
@[simp] theorem setRes_freeIx : (s.setRes v).freeIx = s.freeIx := rfl

end

section
variable (s : State) (v : Nat)

@[simp] theorem setPos_conf : (s.setPos v).conf = s.conf := rfl
@[simp] theorem setPos_addr : (s.setPos v).addr = s.addr := rfl
@[simp] theorem setPos_ch : (s.setPos v).ch = s.ch := rfl
@[simp] theorem setPos_cfg : (s.setPos v).cfg = s.cfg := rfl
@[simp] theorem setPos_mode : (s.setPos v).mode = s.mode := rfl
@[simp] theorem setPos_ld : (s.setPos v).ld = s.ld := rfl
@[simp] theorem setPos_cand : (s.setPos v).cand = s.cand := rfl
@[simp] theorem setPos_res : (s.setPos v).res = s.res := rfl
@[simp] theorem setPos_pos : (s.setPos v).pos = v := rfl
@[simp] theorem setPos_pollcnt : (s.setPos v).pollcnt = s.pollcnt := rfl
@[simp] theorem setPos_st : (s.setPos v).st = s.st := rfl
@[simp] theorem setPos_env : (s.setPos v).env = s.env := rfl
@[simp] theorem setPos_inbox : (s.setPos v).inbox = s.inbox := rfl
@[simp] theorem setPos_outcome : (s.setPos v).outcome = s.outcome := rfl
@[simp] theorem setPos_trace : (s.setPos v).trace = s.trace := rfl
@[simp] theorem setPos_freeIx : (s.setPos v).freeIx = s.freeIx := rfl

end

section
variable (s : State) (v : Nat)

@[simp] theorem setPollcnt_conf : (s.setPollcnt v).conf = s.conf := rfl
@[simp] theorem setPollcnt_addr : (s.setPollcnt v).addr = s.addr := rfl
@[simp] theorem setPollcnt_ch : (s.setPollcnt v).ch = s.ch := rfl
@[simp] theorem setPollcnt_cfg : (s.setPollcnt v).cfg = s.cfg := rfl
@[simp] theorem setPollcnt_mode : (s.setPollcnt v).mode = s.mode := rfl
@[simp] theorem setPollcnt_ld : (s.setPollcnt v).ld = s.ld := rfl
@[simp] theorem setPollcnt_cand : (s.setPollcnt v).cand = s.cand := rfl
@[simp] theorem setPollcnt_res : (s.setPollcnt v).res = s.res := rfl
@[simp] theorem setPollcnt_pos : (s.setPollcnt v).pos = s.pos := rfl
@[simp] theorem setPollcnt_pollcnt : (s.setPollcnt v).pollcnt = v := rfl
@[simp] theorem setPollcnt_st : (s.setPollcnt v).st = s.st := rfl
@[simp] theorem setPollcnt_env : (s.setPollcnt v).env = s.env := rfl
@[simp] theorem setPollcnt_inbox : (s.setPollcnt v).inbox = s.inbox := rfl
@[simp] theorem setPollcnt_outcome : (s.setPollcnt v).outcome = s.outcome := rfl
@[simp] theorem setPollcnt_trace : (s.setPollcnt v).trace = s.trace := rfl
@[simp] theorem setPollcnt_freeIx : (s.setPollcnt v).freeIx = s.freeIx := rfl

end

section
variable (s : State) (v : Byte)

@[simp] theorem setSt_conf : (s.setSt v).conf = s.conf := rfl
@[simp] theorem setSt_addr : (s.setSt v).addr = s.addr := rfl
@[simp] theorem setSt_ch : (s.setSt v).ch = s.ch := rfl
@[simp] theorem setSt_cfg : (s.setSt v).cfg = s.cfg := rfl
@[simp] theorem setSt_mode : (s.setSt v).mode = s.mode := rfl
@[simp] theorem setSt_ld : (s.setSt v).ld = s.ld := rfl
@[simp] theorem setSt_cand : (s.setSt v).cand = s.cand := rfl
@[simp] theorem setSt_res : (s.setSt v).res = s.res := rfl
@[simp] theorem setSt_pos : (s.setSt v).pos = s.pos := rfl
@[simp] theorem setSt_pollcnt : (s.setSt v).pollcnt = s.pollcnt := rfl
@[simp] theorem setSt_st : (s.setSt v).st = v := rfl
@[simp] theorem setSt_env : (s.setSt v).env = s.env := rfl
@[simp] theorem setSt_inbox : (s.setSt v).inbox = s.inbox := rfl
@[simp] theorem setSt_outcome : (s.setSt v).outcome = s.outcome := rfl
@[simp] theorem setSt_trace : (s.setSt v).trace = s.trace := rfl
@[simp] theorem setSt_freeIx : (s.setSt v).freeIx = s.freeIx := rfl

end

section
variable (s : State) (v : Env)

@[simp] theorem setEnv_conf : (s.setEnv v).conf = s.conf := rfl
@[simp] theorem setEnv_addr : (s.setEnv v).addr = s.addr := rfl
@[simp] theorem setEnv_ch : (s.setEnv v).ch = s.ch := rfl
@[simp] theorem setEnv_cfg : (s.setEnv v).cfg = s.cfg := rfl
@[simp] theorem setEnv_mode : (s.setEnv v).mode = s.mode := rfl
@[simp] theorem setEnv_ld : (s.setEnv v).ld = s.ld := rfl
@[simp] theorem setEnv_cand : (s.setEnv v).cand = s.cand := rfl
@[simp] theorem setEnv_res : (s.setEnv v).res = s.res := rfl
@[simp] theorem setEnv_pos : (s.setEnv v).pos = s.pos := rfl
@[simp] theorem setEnv_pollcnt : (s.setEnv v).pollcnt = s.pollcnt := rfl
@[simp] theorem setEnv_st : (s.setEnv v).st = s.st := rfl
@[simp] theorem setEnv_env : (s.setEnv v).env = v := rfl
@[simp] theorem setEnv_inbox : (s.setEnv v).inbox = s.inbox := rfl
@[simp] theorem setEnv_outcome : (s.setEnv v).outcome = s.outcome := rfl
@[simp] theorem setEnv_trace : (s.setEnv v).trace = s.trace := rfl
@[simp] theorem setEnv_freeIx : (s.setEnv v).freeIx = s.freeIx := rfl

end

section
variable (s : State) (v : List Input)

@[simp] theorem setInbox_conf : (s.setInbox v).conf = s.conf := rfl
@[simp] theorem setInbox_addr : (s.setInbox v).addr = s.addr := rfl
@[simp] theorem setInbox_ch : (s.setInbox v).ch = s.ch := rfl
@[simp] theorem setInbox_cfg : (s.setInbox v).cfg = s.cfg := rfl
@[simp] theorem setInbox_mode : (s.setInbox v).mode = s.mode := rfl
@[simp] theorem setInbox_ld : (s.setInbox v).ld = s.ld := rfl
@[simp] theorem setInbox_cand : (s.setInbox v).cand = s.cand := rfl
@[simp] theorem setInbox_res : (s.setInbox v).res = s.res := rfl
@[simp] theorem setInbox_pos : (s.setInbox v).pos = s.pos := rfl
@[simp] theorem setInbox_pollcnt : (s.setInbox v).pollcnt = s.pollcnt := rfl
@[simp] theorem setInbox_st : (s.setInbox v).st = s.st := rfl
@[simp] theorem setInbox_env : (s.setInbox v).env = s.env := rfl
@[simp] theorem setInbox_inbox : (s.setInbox v).inbox = v := rfl
@[simp] theorem setInbox_outcome : (s.setInbox v).outcome = s.outcome := rfl
@[simp] theorem setInbox_trace : (s.setInbox v).trace = s.trace := rfl
@[simp] theorem setInbox_freeIx : (s.setInbox v).freeIx = s.freeIx := rfl

end

section
variable (s : State) (v : Option (HostOutcome Value))

@[simp] theorem setOutcome_conf : (s.setOutcome v).conf = s.conf := rfl
@[simp] theorem setOutcome_addr : (s.setOutcome v).addr = s.addr := rfl
@[simp] theorem setOutcome_ch : (s.setOutcome v).ch = s.ch := rfl
@[simp] theorem setOutcome_cfg : (s.setOutcome v).cfg = s.cfg := rfl
@[simp] theorem setOutcome_mode : (s.setOutcome v).mode = s.mode := rfl
@[simp] theorem setOutcome_ld : (s.setOutcome v).ld = s.ld := rfl
@[simp] theorem setOutcome_cand : (s.setOutcome v).cand = s.cand := rfl
@[simp] theorem setOutcome_res : (s.setOutcome v).res = s.res := rfl
@[simp] theorem setOutcome_pos : (s.setOutcome v).pos = s.pos := rfl
@[simp] theorem setOutcome_pollcnt : (s.setOutcome v).pollcnt = s.pollcnt := rfl
@[simp] theorem setOutcome_st : (s.setOutcome v).st = s.st := rfl
@[simp] theorem setOutcome_env : (s.setOutcome v).env = s.env := rfl
@[simp] theorem setOutcome_inbox : (s.setOutcome v).inbox = s.inbox := rfl
@[simp] theorem setOutcome_outcome : (s.setOutcome v).outcome = v := rfl
@[simp] theorem setOutcome_trace : (s.setOutcome v).trace = s.trace := rfl
@[simp] theorem setOutcome_freeIx : (s.setOutcome v).freeIx = s.freeIx := rfl

end

section
variable (s : State) (v : List TransportOp)

@[simp] theorem setTrace_conf : (s.setTrace v).conf = s.conf := rfl
@[simp] theorem setTrace_addr : (s.setTrace v).addr = s.addr := rfl
@[simp] theorem setTrace_ch : (s.setTrace v).ch = s.ch := rfl
@[simp] theorem setTrace_cfg : (s.setTrace v).cfg = s.cfg := rfl
@[simp] theorem setTrace_mode : (s.setTrace v).mode = s.mode := rfl
@[simp] theorem setTrace_ld : (s.setTrace v).ld = s.ld := rfl
@[simp] theorem setTrace_cand : (s.setTrace v).cand = s.cand := rfl
@[simp] theorem setTrace_res : (s.setTrace v).res = s.res := rfl
@[simp] theorem setTrace_pos : (s.setTrace v).pos = s.pos := rfl
@[simp] theorem setTrace_pollcnt : (s.setTrace v).pollcnt = s.pollcnt := rfl
@[simp] theorem setTrace_st : (s.setTrace v).st = s.st := rfl
@[simp] theorem setTrace_env : (s.setTrace v).env = s.env := rfl
@[simp] theorem setTrace_inbox : (s.setTrace v).inbox = s.inbox := rfl
@[simp] theorem setTrace_outcome : (s.setTrace v).outcome = s.outcome := rfl
@[simp] theorem setTrace_trace : (s.setTrace v).trace = v := rfl
@[simp] theorem setTrace_freeIx : (s.setTrace v).freeIx = s.freeIx := rfl

end

section
variable (s : State) (v : Nat)

@[simp] theorem setFreeIx_conf : (s.setFreeIx v).conf = s.conf := rfl
@[simp] theorem setFreeIx_addr : (s.setFreeIx v).addr = s.addr := rfl
@[simp] theorem setFreeIx_ch : (s.setFreeIx v).ch = s.ch := rfl
@[simp] theorem setFreeIx_cfg : (s.setFreeIx v).cfg = s.cfg := rfl
@[simp] theorem setFreeIx_mode : (s.setFreeIx v).mode = s.mode := rfl
@[simp] theorem setFreeIx_ld : (s.setFreeIx v).ld = s.ld := rfl
@[simp] theorem setFreeIx_cand : (s.setFreeIx v).cand = s.cand := rfl
@[simp] theorem setFreeIx_res : (s.setFreeIx v).res = s.res := rfl
@[simp] theorem setFreeIx_pos : (s.setFreeIx v).pos = s.pos := rfl
@[simp] theorem setFreeIx_pollcnt : (s.setFreeIx v).pollcnt = s.pollcnt := rfl
@[simp] theorem setFreeIx_st : (s.setFreeIx v).st = s.st := rfl
@[simp] theorem setFreeIx_env : (s.setFreeIx v).env = s.env := rfl
@[simp] theorem setFreeIx_inbox : (s.setFreeIx v).inbox = s.inbox := rfl
@[simp] theorem setFreeIx_outcome : (s.setFreeIx v).outcome = s.outcome := rfl
@[simp] theorem setFreeIx_trace : (s.setFreeIx v).trace = s.trace := rfl
@[simp] theorem setFreeIx_freeIx : (s.setFreeIx v).freeIx = v := rfl

end

end Sys2Proof.Machine.State
end

