-- ==== Sys2Proof/Laws/Ops.lean ====
section
/-! SUPPORT. The laws of the shared operations: how a procedure runs, what a transport operation can do, and what the
procedures built from it leave unchanged. -/

namespace Sys2Proof.Machine

/-! ### How a procedure runs -/

section
variable {α β : Type}

theorem bind_run (x : Proc α) (f : α → Proc β) (s : State) :
    (x >>= f) s = match x s with
      | .ok a t => f a t
      | .error e t => .error e t := by
  change EStateM.bind x f s = _
  unfold EStateM.bind
  cases x s <;> rfl

theorem map_run (g : α → β) (x : Proc α) (s : State) :
    (g <$> x) s = match x s with
      | .ok a t => .ok (g a) t
      | .error e t => .error e t := by
  change EStateM.map g x s = _
  unfold EStateM.map
  cases x s <;> rfl

/-- The first part returned: the second runs from where it left off. -/
theorem bind_of_ok {x : Proc α} {s t : State} {a : α} (h : x s = .ok a t) (f : α → Proc β) : (x >>= f) s = f a t := by
  rw [bind_run, h]

/-- The first part raised: the second does not run. -/
theorem bind_of_error {x : Proc α} {s t : State} {e : Err} (h : x s = .error e t) (f : α → Proc β) :
    (x >>= f) s = .error e t := by
  rw [bind_run, h]

@[simp] theorem pure_run (a : α) (s : State) : (pure a : Proc α) s = .ok a s := rfl

@[simp] theorem throw_run (e : Err) (s : State) : (throw e : Proc α) s = .error e s := rfl

@[simp] theorem modify_run (f : State → State) (s : State) : (modify f : Proc Unit) s = .ok ⟨⟩ (f s) := rfl

@[simp] theorem get_run (s : State) : (get : Proc State) s = .ok s s := rfl

@[simp] theorem getConf_run (s : State) : getConf s = .ok s.conf s := rfl

/-- A procedure that returns went through its first part. -/
theorem bind_ok {x : Proc α} {f : α → Proc β} {s u : State} {b : β} :
    (x >>= f) s = .ok b u ↔ ∃ a t, x s = .ok a t ∧ f a t = .ok b u := by
  rw [bind_run]
  cases x s with
  | ok a t => simp
  | error e t => simp

/-- A procedure that raises does so in its first part or after it. -/
theorem bind_error {x : Proc α} {f : α → Proc β} {s u : State} {e : Err} :
    (x >>= f) s = .error e u ↔ x s = .error e u ∨ ∃ a t, x s = .ok a t ∧ f a t = .error e u := by
  rw [bind_run]
  cases x s with
  | ok a t => simp
  | error e' t => simp

/-- The state a procedure leaves, whether it returns or raises. -/
def finalState : EStateM.Result Err State α → State
  | .ok _ t => t
  | .error _ t => t

@[simp] theorem finalState_ok (a : α) (t : State) : finalState (.ok a t : EStateM.Result Err State α) = t := rfl

@[simp] theorem finalState_error (e : Err) (t : State) :
    finalState (.error e t : EStateM.Result Err State α) = t := rfl

/-- From every state the procedure leads to an `R`-related one. -/
def Keeps (R : State → State → Prop) (p : Proc α) : Prop := ∀ s, R s (finalState (p s))

theorem Keeps.of_ok {R : State → State → Prop} {p : Proc α} (h : Keeps R p) {s t : State} {a : α}
    (hp : p s = .ok a t) : R s t := by
  have := h s
  rwa [hp] at this

theorem Keeps.of_error {R : State → State → Prop} {p : Proc α} (h : Keeps R p) {s t : State} {e : Err}
    (hp : p s = .error e t) : R s t := by
  have := h s
  rwa [hp] at this

/-- A relation kept by two parts is kept by the one after the other. -/
theorem Keeps.bind {R : State → State → Prop} (trans : ∀ s t u, R s t → R t u → R s u) {x : Proc α} {f : α → Proc β}
    (hx : Keeps R x) (hf : ∀ a, Keeps R (f a)) : Keeps R (x >>= f) := by
  intro s
  rw [bind_run]
  cases hxs : x s with
  | ok a t => exact trans _ _ _ (hx.of_ok hxs) (hf a t)
  | error e t => exact hx.of_error hxs

theorem Keeps.pure {R : State → State → Prop} (refl : ∀ s, R s s) (a : α) : Keeps R (pure a : Proc α) :=
  fun s => refl s

theorem Keeps.throw {R : State → State → Prop} (refl : ∀ s, R s s) (e : Err) : Keeps R (throw e : Proc α) :=
  fun s => refl s

theorem Keeps.getConf {R : State → State → Prop} (refl : ∀ s, R s s) : Keeps R getConf :=
  fun s => refl s

theorem Keeps.get {R : State → State → Prop} (refl : ∀ s, R s s) : Keeps R (get : Proc State) :=
  fun s => refl s

theorem Keeps.modify {R : State → State → Prop} {f : State → State} (h : ∀ s, R s (f s)) :
    Keeps R (modify f : Proc Unit) :=
  fun s => h s

/-- A weaker relation is kept too. -/
theorem Keeps.mono {R S : State → State → Prop} (h : ∀ s t, R s t → S s t) {p : Proc α} (hp : Keeps R p) :
    Keeps S p :=
  fun s => h _ _ (hp s)

end

/-! ### What a transport operation can do -/

/-- Only the environment and the trace move, and the trace grows; the counter of free values may move
(`20_memory.md` R41, R42: a transport operation "writes no block state"). -/
structure PortFrame (s t : State) : Prop where
  conf : t.conf = s.conf
  addr : t.addr = s.addr
  ch : t.ch = s.ch
  cfg : t.cfg = s.cfg
  mode : t.mode = s.mode
  ld : t.ld = s.ld
  cand : t.cand = s.cand
  res : t.res = s.res
  pos : t.pos = s.pos
  pollcnt : t.pollcnt = s.pollcnt
  st : t.st = s.st
  inbox : t.inbox = s.inbox
  outcome : t.outcome = s.outcome
  trace : s.trace <+: t.trace

/-- `PortFrame` with `POLLCNT` and `ST` left open: what the procedures of the OneWireBus leave unchanged. -/
structure BusFrame (s t : State) : Prop where
  conf : t.conf = s.conf
  addr : t.addr = s.addr
  ch : t.ch = s.ch
  cfg : t.cfg = s.cfg
  mode : t.mode = s.mode
  ld : t.ld = s.ld
  cand : t.cand = s.cand
  res : t.res = s.res
  pos : t.pos = s.pos
  inbox : t.inbox = s.inbox
  outcome : t.outcome = s.outcome
  trace : s.trace <+: t.trace

/-- `BusFrame` with the registers of the ROMSearchEngine left open (`00_scope.md` R18). -/
structure SearchFrame (s t : State) : Prop where
  conf : t.conf = s.conf
  addr : t.addr = s.addr
  ch : t.ch = s.ch
  cfg : t.cfg = s.cfg
  mode : t.mode = s.mode
  inbox : t.inbox = s.inbox
  outcome : t.outcome = s.outcome
  trace : s.trace <+: t.trace

theorem PortFrame.toBusFrame {s t : State} (h : PortFrame s t) : BusFrame s t :=
  ⟨h.conf, h.addr, h.ch, h.cfg, h.mode, h.ld, h.cand, h.res, h.pos, h.inbox, h.outcome, h.trace⟩

theorem BusFrame.toSearchFrame {s t : State} (h : BusFrame s t) : SearchFrame s t :=
  ⟨h.conf, h.addr, h.ch, h.cfg, h.mode, h.inbox, h.outcome, h.trace⟩

@[refl] theorem PortFrame.refl (s : State) : PortFrame s s :=
  ⟨rfl, rfl, rfl, rfl, rfl, rfl, rfl, rfl, rfl, rfl, rfl, rfl, rfl, List.prefix_refl _⟩

@[refl] theorem BusFrame.refl (s : State) : BusFrame s s := (PortFrame.refl s).toBusFrame

@[refl] theorem SearchFrame.refl (s : State) : SearchFrame s s := (BusFrame.refl s).toSearchFrame

theorem PortFrame.trans (s t u : State) (h : PortFrame s t) (k : PortFrame t u) : PortFrame s u :=
  ⟨k.conf.trans h.conf, k.addr.trans h.addr, k.ch.trans h.ch, k.cfg.trans h.cfg, k.mode.trans h.mode,
    k.ld.trans h.ld, k.cand.trans h.cand, k.res.trans h.res, k.pos.trans h.pos, k.pollcnt.trans h.pollcnt,
    k.st.trans h.st, k.inbox.trans h.inbox, k.outcome.trans h.outcome, h.trace.trans k.trace⟩

theorem BusFrame.trans (s t u : State) (h : BusFrame s t) (k : BusFrame t u) : BusFrame s u :=
  ⟨k.conf.trans h.conf, k.addr.trans h.addr, k.ch.trans h.ch, k.cfg.trans h.cfg, k.mode.trans h.mode,
    k.ld.trans h.ld, k.cand.trans h.cand, k.res.trans h.res, k.pos.trans h.pos, k.inbox.trans h.inbox,
    k.outcome.trans h.outcome, h.trace.trans k.trace⟩

theorem SearchFrame.trans (s t u : State) (h : SearchFrame s t) (k : SearchFrame t u) : SearchFrame s u :=
  ⟨k.conf.trans h.conf, k.addr.trans h.addr, k.ch.trans h.ch, k.cfg.trans h.cfg, k.mode.trans h.mode,
    k.inbox.trans h.inbox, k.outcome.trans h.outcome, h.trace.trans k.trace⟩

/-- The environment answers a read and moves on: nothing of the block changes. -/
theorem envRead_cases (s : State) :
    (∃ n, (envRead s).2 = s.setFreeIx n) ∨ (∃ e, (envRead s).2 = s.setEnv e) := by
  unfold envRead
  split
  · exact .inl ⟨_, rfl⟩
  · exact .inr ⟨_, rfl⟩
  · exact .inr ⟨_, rfl⟩
  · exact .inr ⟨_, rfl⟩

/-- The environment answers a write and moves on: nothing of the block changes. -/
theorem envWrite_cases (b : Byte) (s : State) :
    (∃ n, (envWrite b s).2 = s.setFreeIx n) ∨ (∃ e, (envWrite b s).2 = s.setEnv e) := by
  unfold envWrite
  split
  · exact .inl ⟨_, rfl⟩
  · exact .inr ⟨_, rfl⟩
  · exact .inr ⟨_, rfl⟩
  · exact .inr ⟨_, rfl⟩

/-- A transport operation is in the trace. -/
theorem record_frame (op : TransportOp) {s t : State}
    (h : (∃ n, t = s.setFreeIx n) ∨ (∃ e, t = s.setEnv e)) : PortFrame s (record op t) := by
  rcases h with ⟨n, rfl⟩ | ⟨e, rfl⟩ <;> constructor <;> simp [record]

/-- A read returns the byte the environment answered, or raises `TransportError`; it raises nothing else. -/
theorem tRead_cases (s : State) :
    (∃ v, (envRead s).1 = some v ∧ tRead s = .ok v (record (.rd s.addr v) (envRead s).2)) ∨
      ((envRead s).1 = none ∧ tRead s = .error .transport (record .failed (envRead s).2)) := by
  unfold tRead
  rcases h : envRead s with ⟨_ | v, t⟩ <;> simp

/-- A write returns when the environment acknowledged it, and raises `TransportError` otherwise. -/
theorem tWrite_cases (b : Byte) (s : State) :
    ((envWrite b s).1 = true ∧ tWrite b s = .ok () (record (.wr s.addr b) (envWrite b s).2)) ∨
      ((envWrite b s).1 = false ∧ tWrite b s = .error .transport (record .failed (envWrite b s).2)) := by
  unfold tWrite
  rcases h : envWrite b s with ⟨_ | _, t⟩ <;> simp

theorem tRead_keeps : Keeps PortFrame tRead := by
  intro s
  rcases tRead_cases s with ⟨v, -, h⟩ | ⟨-, h⟩ <;> rw [h] <;> exact record_frame _ (envRead_cases s)

theorem tWrite_keeps (b : Byte) : Keeps PortFrame (tWrite b) := by
  intro s
  rcases tWrite_cases b s with ⟨-, h⟩ | ⟨-, h⟩ <;> rw [h] <;> exact record_frame _ (envWrite_cases b s)

/-- A scripted answer to a read. -/
theorem tRead_script {s : State} {v : Byte} {rest : List Answer} (h : s.env = .script (.ack v :: rest)) :
    tRead s = .ok v (record (.rd s.addr v) (s.setEnv (.script rest))) := by
  simp [tRead, envRead, h]

/-- A scripted answer to a write. -/
theorem tWrite_script {s : State} {b v : Byte} {rest : List Answer} (h : s.env = .script (.ack v :: rest)) :
    tWrite b s = .ok () (record (.wr s.addr b) (s.setEnv (.script rest))) := by
  simp [tWrite, envWrite, h]

/-- A transport operation that a script does not acknowledge. -/
theorem tWrite_script_nack {s : State} {b : Byte} {rest : List Answer} (h : s.env = .script (.nack :: rest)) :
    tWrite b s = .error .transport (record .failed (s.setEnv (.script rest))) := by
  simp [tWrite, envWrite, h]

/-! ### What the procedures leave unchanged -/

theorem cmd0_keeps (c : Byte) : Keeps PortFrame (cmd0 c) := tWrite_keeps c

theorem cmd1_keeps (c p : Byte) : Keeps PortFrame (cmd1 c p) :=
  (tWrite_keeps c).bind PortFrame.trans fun _ => tWrite_keeps p

theorem pollLoop_keeps (n : Nat) : Keeps BusFrame (pollLoop n) := by
  induction n with
  | zero => exact Keeps.throw BusFrame.refl _
  | succ n ih =>
    refine (tRead_keeps.mono fun _ _ => PortFrame.toBusFrame).bind BusFrame.trans fun v => ?_
    refine (Keeps.modify fun s => ?_).bind BusFrame.trans fun _ => ?_
    · constructor <;> simp
    · refine (Keeps.getConf BusFrame.refl).bind BusFrame.trans fun c => ?_
      split
      · exact ih
      · exact Keeps.pure BusFrame.refl _

theorem pollUntilIdle_keeps : Keeps BusFrame pollUntilIdle := by
  refine (Keeps.getConf BusFrame.refl).bind BusFrame.trans fun c => ?_
  refine ((cmd1_keeps _ _).mono fun _ _ => PortFrame.toBusFrame).bind BusFrame.trans fun _ => ?_
  refine (Keeps.modify fun s => ?_).bind BusFrame.trans fun _ => pollLoop_keeps _
  constructor <;> simp

theorem busReset_keeps : Keeps BusFrame busReset := by
  refine (Keeps.getConf BusFrame.refl).bind BusFrame.trans fun c => ?_
  refine pollUntilIdle_keeps.bind BusFrame.trans fun _ => ?_
  refine ((cmd0_keeps _).mono fun _ _ => PortFrame.toBusFrame).bind BusFrame.trans fun _ => ?_
  exact pollUntilIdle_keeps.bind BusFrame.trans fun _ => Keeps.pure BusFrame.refl _

theorem writeByte_keeps (b : Byte) : Keeps BusFrame (writeByte b) := by
  refine (Keeps.getConf BusFrame.refl).bind BusFrame.trans fun c => ?_
  refine pollUntilIdle_keeps.bind BusFrame.trans fun _ => ?_
  refine ((cmd1_keeps _ _).mono fun _ _ => PortFrame.toBusFrame).bind BusFrame.trans fun _ => ?_
  exact pollUntilIdle_keeps.bind BusFrame.trans fun _ => Keeps.pure BusFrame.refl _

theorem writeBytes_keeps (bs : List Byte) : Keeps BusFrame (writeBytes bs) := by
  induction bs with
  | nil => exact Keeps.pure BusFrame.refl _
  | cons b bs ih => exact (writeByte_keeps b).bind BusFrame.trans fun _ => ih

theorem readByte_keeps : Keeps BusFrame readByte := by
  refine (Keeps.getConf BusFrame.refl).bind BusFrame.trans fun c => ?_
  refine pollUntilIdle_keeps.bind BusFrame.trans fun _ => ?_
  refine ((cmd0_keeps _).mono fun _ _ => PortFrame.toBusFrame).bind BusFrame.trans fun _ => ?_
  refine pollUntilIdle_keeps.bind BusFrame.trans fun _ => ?_
  refine ((cmd1_keeps _ _).mono fun _ _ => PortFrame.toBusFrame).bind BusFrame.trans fun _ => ?_
  exact tRead_keeps.mono fun _ _ => PortFrame.toBusFrame

theorem matchRomBytes_keeps (id : Identifier) : Keeps BusFrame (matchRomBytes id) := by
  refine (Keeps.getConf BusFrame.refl).bind BusFrame.trans fun c => ?_
  exact (writeByte_keeps _).bind BusFrame.trans fun _ => writeBytes_keeps _

theorem matchRom_keeps (id : Identifier) : Keeps BusFrame (matchRom id) := by
  refine busReset_keeps.bind BusFrame.trans fun p => ?_
  split
  · exact (matchRomBytes_keeps id).bind BusFrame.trans fun _ => Keeps.pure BusFrame.refl _
  · exact Keeps.pure BusFrame.refl _

theorem searchTriplet_keeps (dir : Bool) : Keeps BusFrame (searchTriplet dir) := by
  refine (Keeps.getConf BusFrame.refl).bind BusFrame.trans fun c => ?_
  refine pollUntilIdle_keeps.bind BusFrame.trans fun _ => ?_
  refine ((cmd1_keeps _ _).mono fun _ _ => PortFrame.toBusFrame).bind BusFrame.trans fun _ => ?_
  exact pollUntilIdle_keeps.bind BusFrame.trans fun _ => Keeps.pure BusFrame.refl _

theorem selchSequence_keeps (ch : BitVec 3) : Keeps BusFrame (selchSequence ch) := by
  refine (Keeps.getConf BusFrame.refl).bind BusFrame.trans fun c => ?_
  refine ((cmd1_keeps _ _).mono fun _ _ => PortFrame.toBusFrame).bind BusFrame.trans fun _ => ?_
  refine (tRead_keeps.mono fun _ _ => PortFrame.toBusFrame).bind BusFrame.trans fun e => ?_
  split
  · exact Keeps.throw BusFrame.refl _
  · exact Keeps.pure BusFrame.refl _

theorem searchStep_keeps (p : Nat) (newLd : Int) : Keeps SearchFrame (searchStep p newLd) := by
  refine (Keeps.modify fun s => ?_).bind SearchFrame.trans fun _ => ?_
  · constructor <;> simp
  refine (Keeps.get SearchFrame.refl).bind SearchFrame.trans fun s => ?_
  refine ((searchTriplet_keeps _).mono fun _ _ => BusFrame.toSearchFrame).bind SearchFrame.trans fun r => ?_
  obtain ⟨idb, cmp⟩ := r
  have last : Keeps SearchFrame (do
      modify fun t => t.setCand (withIdBit t.cand p (searchBitTaken idb cmp (searchDirection p s.ld s.cand)))
      return searchNewLd p idb cmp (searchDirection p s.ld s.cand) newLd) := by
    refine (Keeps.modify fun s => ?_).bind SearchFrame.trans fun _ => Keeps.pure SearchFrame.refl _
    constructor <;> simp
  dsimp only
  split
  · exact (Keeps.throw SearchFrame.refl _).bind SearchFrame.trans fun _ => last
  · exact last

theorem searchSteps_keeps (ps : List Nat) : ∀ newLd, Keeps SearchFrame (searchSteps ps newLd) := by
  induction ps with
  | nil => exact fun _ => Keeps.pure SearchFrame.refl _
  | cons p ps ih => exact fun _ => (searchStep_keeps p _).bind SearchFrame.trans fun n => ih n

theorem searchBookkeeping_frame (newLd : Int) (s : State) : SearchFrame s (searchBookkeeping newLd s) := by
  unfold searchBookkeeping
  dsimp only
  split <;> constructor <;> simp

theorem searchPass_keeps : Keeps SearchFrame searchPass := by
  refine (Keeps.getConf SearchFrame.refl).bind SearchFrame.trans fun c => ?_
  refine (busReset_keeps.mono fun _ _ => BusFrame.toSearchFrame).bind SearchFrame.trans fun p => ?_
  split
  · refine ((writeByte_keeps _).mono fun _ _ => BusFrame.toSearchFrame).bind SearchFrame.trans fun _ => ?_
    refine (searchSteps_keeps _ _).bind SearchFrame.trans fun n => ?_
    refine (Keeps.modify fun s => searchBookkeeping_frame n s).bind SearchFrame.trans fun _ => ?_
    exact Keeps.pure SearchFrame.refl _
  · exact Keeps.pure SearchFrame.refl _

theorem searchLoop_keeps (n : Nat) : Keeps SearchFrame (searchLoop n) := by
  induction n with
  | zero => exact Keeps.pure SearchFrame.refl _
  | succ n ih =>
    refine searchPass_keeps.bind SearchFrame.trans fun e => ?_
    cases e with
    | again => exact ih
    | noPresence => exact Keeps.pure SearchFrame.refl _
    | last => exact Keeps.pure SearchFrame.refl _

theorem searchProc_keeps : Keeps SearchFrame searchProc := by
  refine (Keeps.getConf SearchFrame.refl).bind SearchFrame.trans fun c => ?_
  refine (Keeps.modify fun s => ?_).bind SearchFrame.trans fun _ => ?_
  · constructor <;> simp [searchFresh]
  refine (searchLoop_keeps _).bind SearchFrame.trans fun b => ?_
  exact (Keeps.get SearchFrame.refl).bind SearchFrame.trans fun s => Keeps.pure SearchFrame.refl _

/-- `SearchFrame` with `CFG` open and the registers of the search kept: what the body of `INIT` leaves unchanged. -/
structure InitFrame (s t : State) : Prop where
  conf : t.conf = s.conf
  addr : t.addr = s.addr
  ch : t.ch = s.ch
  mode : t.mode = s.mode
  ld : t.ld = s.ld
  cand : t.cand = s.cand
  res : t.res = s.res
  pos : t.pos = s.pos
  inbox : t.inbox = s.inbox
  outcome : t.outcome = s.outcome
  trace : s.trace <+: t.trace

theorem BusFrame.toInitFrame {s t : State} (h : BusFrame s t) : InitFrame s t :=
  ⟨h.conf, h.addr, h.ch, h.mode, h.ld, h.cand, h.res, h.pos, h.inbox, h.outcome, h.trace⟩

@[refl] theorem InitFrame.refl (s : State) : InitFrame s s := (BusFrame.refl s).toInitFrame

theorem InitFrame.trans (s t u : State) (h : InitFrame s t) (k : InitFrame t u) : InitFrame s u :=
  ⟨k.conf.trans h.conf, k.addr.trans h.addr, k.ch.trans h.ch, k.mode.trans h.mode, k.ld.trans h.ld,
    k.cand.trans h.cand, k.res.trans h.res, k.pos.trans h.pos, k.inbox.trans h.inbox, k.outcome.trans h.outcome,
    h.trace.trans k.trace⟩

theorem initBody_keeps (ch : BitVec 3) : Keeps InitFrame (initBody ch) := by
  have wr : ∀ b, Keeps InitFrame (tWrite b) := fun b => (tWrite_keeps b).mono fun _ _ h => h.toBusFrame.toInitFrame
  have rd : Keeps InitFrame tRead := tRead_keeps.mono fun _ _ h => h.toBusFrame.toInitFrame
  have select : ∀ (c : ConfigRecord) (f : Byte), Keeps InitFrame (do
      modify fun t => t.setCfg f
      if c.variant = .multi8 then
        let _ ← pollUntilIdle
        selchSequence ch) := by
    intro c f
    refine (Keeps.modify fun s => ?_).bind InitFrame.trans fun _ => ?_
    · constructor <;> simp
    split
    · exact (pollUntilIdle_keeps.mono fun _ _ => BusFrame.toInitFrame).bind InitFrame.trans fun _ =>
        (selchSequence_keeps ch).mono fun _ _ => BusFrame.toInitFrame
    · exact Keeps.pure InitFrame.refl _
  have configure : ∀ c : ConfigRecord, Keeps InitFrame (do
      cmd1 c.cmdWCFG c.cfgInitW
      let f ← tRead
      if f ≠ c.cfgInit then throw .initialization
      modify fun t => t.setCfg f
      if c.variant = .multi8 then
        let _ ← pollUntilIdle
        selchSequence ch) := by
    intro c
    refine ((wr _).bind InitFrame.trans fun _ => wr _).bind InitFrame.trans fun _ => rd.bind InitFrame.trans fun f => ?_
    dsimp only
    split
    · exact (Keeps.throw InitFrame.refl _).bind InitFrame.trans fun _ => select c f
    · exact select c f
  refine (Keeps.getConf InitFrame.refl).bind InitFrame.trans fun c => (wr _).bind InitFrame.trans fun _ =>
    rd.bind InitFrame.trans fun st => ?_
  dsimp only
  split
  · exact (Keeps.throw InitFrame.refl _).bind InitFrame.trans fun _ => configure c
  · exact configure c

/-! ### Which errors a procedure raises -/

section
variable {α β : Type}

/-- Every error the procedure raises is one of `P`. -/
def Raises (P : Err → Prop) (p : Proc α) : Prop := ∀ s e t, p s = .error e t → P e

theorem Raises.bind {P : Err → Prop} {x : Proc α} {f : α → Proc β} (hx : Raises P x) (hf : ∀ a, Raises P (f a)) :
    Raises P (x >>= f) := by
  intro s e t h
  rcases bind_error.1 h with h | ⟨a, u, -, h⟩
  · exact hx _ _ _ h
  · exact hf a _ _ _ h

theorem Raises.pure {P : Err → Prop} (a : α) : Raises P (pure a : Proc α) := by
  intro s e t h
  simp at h

theorem Raises.throw {P : Err → Prop} {e : Err} (he : P e) : Raises P (throw e : Proc α) := by
  intro s e' t h
  simp only [throw_run, EStateM.Result.error.injEq] at h
  exact h.1 ▸ he

theorem Raises.getConf {P : Err → Prop} : Raises P getConf := by
  intro s e t h
  simp at h

theorem Raises.get {P : Err → Prop} : Raises P (get : Proc State) := by
  intro s e t h
  simp at h

theorem Raises.modify {P : Err → Prop} {f : State → State} : Raises P (modify f : Proc Unit) := by
  intro s e t h
  simp at h

theorem Raises.mono {P Q : Err → Prop} (h : ∀ e, P e → Q e) {p : Proc α} (hp : Raises P p) : Raises Q p :=
  fun s e t hs => h e (hp s e t hs)

end

/-- The errors of a primitive: a transport operation failed, or a poll timed out. -/
def PrimitiveErr (e : Err) : Prop := e = .transport ∨ e = .timeout

theorem tRead_raises {P : Err → Prop} (h : P .transport) : Raises P tRead := by
  intro s e t hs
  rcases tRead_cases s with ⟨v, -, hv⟩ | ⟨-, hv⟩ <;> rw [hv] at hs <;> simp at hs
  exact hs.1 ▸ h

theorem tWrite_raises {P : Err → Prop} (h : P .transport) (b : Byte) : Raises P (tWrite b) := by
  intro s e t hs
  rcases tWrite_cases b s with ⟨-, hv⟩ | ⟨-, hv⟩ <;> rw [hv] at hs <;> simp at hs
  exact hs.1 ▸ h

theorem cmd1_raises {P : Err → Prop} (h : P .transport) (c p : Byte) : Raises P (cmd1 c p) :=
  (tWrite_raises h c).bind fun _ => tWrite_raises h p

theorem pollLoop_raises (n : Nat) : Raises PrimitiveErr (pollLoop n) := by
  induction n with
  | zero => exact Raises.throw (.inr rfl)
  | succ n ih =>
    refine (tRead_raises (.inl rfl)).bind fun v => Raises.modify.bind fun _ => Raises.getConf.bind fun c => ?_
    split
    · exact ih
    · exact Raises.pure _

theorem pollUntilIdle_raises : Raises PrimitiveErr pollUntilIdle :=
  Raises.getConf.bind fun _ => (cmd1_raises (.inl rfl) _ _).bind fun _ => Raises.modify.bind fun _ => pollLoop_raises _

theorem busReset_raises : Raises PrimitiveErr busReset :=
  Raises.getConf.bind fun _ => pollUntilIdle_raises.bind fun _ => (tWrite_raises (.inl rfl) _).bind fun _ =>
    pollUntilIdle_raises.bind fun _ => Raises.pure _

theorem writeByte_raises (b : Byte) : Raises PrimitiveErr (writeByte b) :=
  Raises.getConf.bind fun _ => pollUntilIdle_raises.bind fun _ => (cmd1_raises (.inl rfl) _ _).bind fun _ =>
    pollUntilIdle_raises.bind fun _ => Raises.pure _

theorem writeBytes_raises (bs : List Byte) : Raises PrimitiveErr (writeBytes bs) := by
  induction bs with
  | nil => exact Raises.pure _
  | cons b bs ih => exact (writeByte_raises b).bind fun _ => ih

theorem readByte_raises : Raises PrimitiveErr readByte :=
  Raises.getConf.bind fun _ => pollUntilIdle_raises.bind fun _ => (tWrite_raises (.inl rfl) _).bind fun _ =>
    pollUntilIdle_raises.bind fun _ => (cmd1_raises (.inl rfl) _ _).bind fun _ => tRead_raises (.inl rfl)

theorem matchRomBytes_raises (id : Identifier) : Raises PrimitiveErr (matchRomBytes id) :=
  Raises.getConf.bind fun _ => (writeByte_raises _).bind fun _ => writeBytes_raises _

theorem matchRom_raises (id : Identifier) : Raises PrimitiveErr (matchRom id) := by
  refine busReset_raises.bind fun p => ?_
  split
  · exact (matchRomBytes_raises id).bind fun _ => Raises.pure _
  · exact Raises.pure _

theorem searchTriplet_raises (dir : Bool) : Raises PrimitiveErr (searchTriplet dir) :=
  Raises.getConf.bind fun _ => pollUntilIdle_raises.bind fun _ => (cmd1_raises (.inl rfl) _ _).bind fun _ =>
    pollUntilIdle_raises.bind fun _ => Raises.pure _

theorem selchSequence_raises (ch : BitVec 3) :
    Raises (fun e => e = .transport ∨ e = .initialization) (selchSequence ch) := by
  refine Raises.getConf.bind fun _ => (cmd1_raises (.inl rfl) _ _).bind fun _ =>
    (tRead_raises (.inl rfl)).bind fun e => ?_
  split
  · exact Raises.throw (.inr rfl)
  · exact Raises.pure _

/-- The errors of a search (`42_rom_search.md` R159). -/
def SearchErr (e : Err) : Prop := PrimitiveErr e ∨ e = .noDevice

theorem searchStep_raises (p : Nat) (newLd : Int) : Raises SearchErr (searchStep p newLd) := by
  refine Raises.modify.bind fun _ => Raises.get.bind fun s =>
    ((searchTriplet_raises _).mono fun _ => .inl).bind fun r => ?_
  obtain ⟨idb, cmp⟩ := r
  dsimp only
  split
  · exact (Raises.throw (.inr rfl)).bind fun _ => Raises.modify.bind fun _ => Raises.pure _
  · exact Raises.modify.bind fun _ => Raises.pure _

theorem searchSteps_raises (ps : List Nat) : ∀ newLd, Raises SearchErr (searchSteps ps newLd) := by
  induction ps with
  | nil => exact fun _ => Raises.pure _
  | cons p ps ih => exact fun _ => (searchStep_raises p _).bind fun n => ih n

theorem searchPass_raises : Raises SearchErr searchPass := by
  refine Raises.getConf.bind fun _ => (busReset_raises.mono fun _ => .inl).bind fun p => ?_
  split
  · exact ((writeByte_raises _).mono fun _ => .inl).bind fun _ => (searchSteps_raises _ _).bind fun _ =>
      Raises.modify.bind fun _ => Raises.pure _
  · exact Raises.pure _

theorem searchLoop_raises (n : Nat) : Raises SearchErr (searchLoop n) := by
  induction n with
  | zero => exact Raises.pure _
  | succ n ih =>
    refine searchPass_raises.bind fun e => ?_
    cases e with
    | again => exact ih
    | noPresence => exact Raises.pure _
    | last => exact Raises.pure _

theorem searchProc_raises : Raises SearchErr searchProc :=
  Raises.getConf.bind fun _ => Raises.modify.bind fun _ => (searchLoop_raises _).bind fun _ =>
    Raises.get.bind fun _ => Raises.pure _

/-! ### Taking an error -/

/-- All that an error can lose: `CH` and `CFG`, at the price of free values; `CFG` only where `InitializationError` is
reported (log 26). -/
theorem loseUnspecified_only (site : ErrorSite) (e : Err) (s : State) :
    ∃ c f n, loseUnspecified site e s = { s with ch := c, cfg := f, freeIx := n } ∧
      (reportedError site e ≠ .initialization → f = s.cfg) := by
  cases site
  case selchSequence => cases e <;> exact ⟨_, _, _, rfl, by simp [reportedError]⟩
  all_goals exact ⟨_, _, _, rfl, by simp [reportedError]⟩

section
variable (site : ErrorSite) (e : Err) (s : State)

@[simp] theorem takeError_conf : (takeError site e s).conf = s.conf := by
  obtain ⟨_, _, _, h, -⟩ := loseUnspecified_only site e s
  rw [takeError, h]
  rfl

@[simp] theorem takeError_addr : (takeError site e s).addr = s.addr := by
  obtain ⟨_, _, _, h, -⟩ := loseUnspecified_only site e s
  rw [takeError, h]
  rfl

@[simp] theorem takeError_ld : (takeError site e s).ld = s.ld := by
  obtain ⟨_, _, _, h, -⟩ := loseUnspecified_only site e s
  rw [takeError, h]
  rfl

@[simp] theorem takeError_cand : (takeError site e s).cand = s.cand := by
  obtain ⟨_, _, _, h, -⟩ := loseUnspecified_only site e s
  rw [takeError, h]
  rfl

@[simp] theorem takeError_res : (takeError site e s).res = s.res := by
  obtain ⟨_, _, _, h, -⟩ := loseUnspecified_only site e s
  rw [takeError, h]
  rfl

@[simp] theorem takeError_pos : (takeError site e s).pos = s.pos := by
  obtain ⟨_, _, _, h, -⟩ := loseUnspecified_only site e s
  rw [takeError, h]
  rfl

@[simp] theorem takeError_pollcnt : (takeError site e s).pollcnt = s.pollcnt := by
  obtain ⟨_, _, _, h, -⟩ := loseUnspecified_only site e s
  rw [takeError, h]
  rfl

@[simp] theorem takeError_st : (takeError site e s).st = s.st := by
  obtain ⟨_, _, _, h, -⟩ := loseUnspecified_only site e s
  rw [takeError, h]
  rfl

@[simp] theorem takeError_env : (takeError site e s).env = s.env := by
  obtain ⟨_, _, _, h, -⟩ := loseUnspecified_only site e s
  rw [takeError, h]
  rfl

@[simp] theorem takeError_inbox : (takeError site e s).inbox = s.inbox := by
  obtain ⟨_, _, _, h, -⟩ := loseUnspecified_only site e s
  rw [takeError, h]
  rfl

@[simp] theorem takeError_trace : (takeError site e s).trace = s.trace := by
  obtain ⟨_, _, _, h, -⟩ := loseUnspecified_only site e s
  rw [takeError, h]
  rfl

@[simp] theorem takeError_mode : (takeError site e s).mode = modeAfterError site e s.mode := rfl

@[simp] theorem takeError_outcome : (takeError site e s).outcome = some (.err (reportedError site e)) := rfl

/-- `CFG` survives every error that is not reported as `InitializationError`. -/
theorem takeError_cfg (h : reportedError site e ≠ .initialization) : (takeError site e s).cfg = s.cfg := by
  obtain ⟨_, _, _, hl, hf⟩ := loseUnspecified_only site e s
  rw [takeError, hl]
  exact hf h

/-- Before the command of `SELCH` is issued an error loses nothing (`40_bridge_controller.md` R113). -/
theorem takeError_selchPoll_ch : (takeError .selchPoll e s).ch = s.ch := rfl

/-- An error of a primitive loses nothing. -/
theorem takeError_primitive_ch : (takeError .primitive e s).ch = s.ch := rfl

end

/-! ### Ending a host operation -/

/-- `host_prim` refuses, or runs the body and takes its error as `60_exceptions.md` R191 says. -/
theorem hostPrim_cases {α : Type} (allowed : List Mode) (body : Proc α) (s : State) :
    (s.mode ∉ allowed ∧ hostPrim allowed body s = (.refused .notReady, refuse .notReady s)) ∨
      (s.mode ∈ allowed ∧ ∃ v t, body s = .ok v t ∧ hostPrim allowed body s = (.ok v, t)) ∨
      (s.mode ∈ allowed ∧ ∃ e t, body s = .error e t ∧ hostPrim allowed body s = (.err e, takeError .primitive e t)) := by
  unfold hostPrim
  by_cases hm : s.mode ∈ allowed
  · cases h : body s with
    | ok v t => exact .inr (.inl ⟨hm, v, t, rfl, by simp [hm]⟩)
    | error e t => exact .inr (.inr ⟨hm, e, t, rfl, by simp [hm]⟩)
  · exact .inl ⟨hm, by simp [hm]⟩

/-- A fragment is refused in `UNINIT`; in the other modes it returns or raises, and its result is what is delivered. -/
theorem runFragment_cases (p : Proc Unit) (s : State) :
    (s.mode = .uninit ∧ runFragment p s = refuse .notReady s) ∨
      (s.mode ≠ .uninit ∧ ∃ t, p s = .ok () t ∧ runFragment p s = deliver (.ok .none) t) ∨
      (s.mode ≠ .uninit ∧ ∃ e t, p s = .error e t ∧ runFragment p s = deliver (.err e) t) := by
  unfold runFragment
  by_cases hm : s.mode = .uninit
  · exact .inl ⟨hm, by simp [hm]⟩
  · cases h : p s with
    | ok v t => exact .inr (.inl ⟨hm, t, rfl, by simp [hm]⟩)
    | error e t => exact .inr (.inr ⟨hm, e, t, rfl, by simp [hm]⟩)

/-- In `UNINIT` a fragment does nothing but deliver the refusal (`10_state.md` R38). -/
theorem runFragment_uninit (p : Proc Unit) {s : State} (h : s.mode = .uninit) :
    runFragment p s = refuse .notReady s := by
  simp [runFragment, h]

end Sys2Proof.Machine
end

