-- ==== Sys2Proof/Laws/PerInstr.lean ====
section
/-! SUPPORT. Facts about every instruction as syntax, one lemma per constructor. -/

namespace Sys2Proof.Laws.EncodedLength

/-- The encoding of an instruction has the length the table gives it (`30_encoding.md` R81, R84, R86, R92). -/
def Statement (i : Instr) : Prop := ∀ c : ConfigRecord, (encode c i).length = lengthOf i

theorem init (addr ch : Byte) : Statement (.init addr ch) := fun _ => rfl
theorem selch (ch : Byte) : Statement (.selch ch) := fun _ => rfl
theorem owreset : Statement .owreset := fun _ => rfl
theorem owwrite (b : Byte) : Statement (.owwrite b) := fun _ => rfl
theorem owread : Statement .owread := fun _ => rfl
theorem matchrom (id : Identifier) : Statement (.matchrom id) := fun _ => by
  simp [encode, operandBytes, lengthOf]
theorem search : Statement .search := fun _ => rfl
theorem crc8 (data : List Byte) : Statement (.crc8 data) := fun _ => by
  simp [encode, operandBytes, lengthOf]; omega
theorem drst : Statement .drst := fun _ => rfl
theorem srp (pointer : Byte) : Statement (.srp pointer) := fun _ => rfl
theorem wcfg (config : Byte) : Statement (.wcfg config) := fun _ => rfl
theorem chsl (code : Byte) : Statement (.chsl code) := fun _ => rfl
theorem w1rs : Statement .w1rs := fun _ => rfl
theorem w1wb (data : Byte) : Statement (.w1wb data) := fun _ => rfl
theorem w1rb : Statement .w1rb := fun _ => rfl
theorem w1t (direction : Byte) : Statement (.w1t direction) := fun _ => rfl
theorem w1sb (bit : Byte) : Statement (.w1sb bit) := fun _ => rfl
theorem romMatch (id : Identifier) : Statement (.romMatch id) := fun _ => by
  simp [encode, operandBytes, lengthOf]
theorem romSearch : Statement .romSearch := fun _ => rfl

end Sys2Proof.Laws.EncodedLength
end

