-- ==== Sys2Proof/Tests/Slice0.lean ====
section
/-! SUPPORT. Tests. Expected values come from the spec: its encoding tables, its worked examples and its test vectors,
named at each test. After them, for every statement with hypotheses, a concrete state that meets them. -/

namespace Sys2Proof.Tests

open Sys2Proof.Machine Sys2Proof.Safety

-- One theorem after the other: each that waits for the kernel would hold a thread of its own.
set_option Elab.async false

/-! ### Helpers -/

def confSingle : ConfigRecord := defaultConf .single 4
def confMulti : ConfigRecord := defaultConf .multi8 4

/-- The identifiers of `42_rom_search.md` R163. -/
def idA : Identifier := #v[0x28, 0xFF, 0x4A, 0x1C, 0x00, 0x00, 0x00, 0x36]
def idB : Identifier := #v[0x28, 0xFF, 0x4A, 0x1C, 0x00, 0x00, 0x01, 0x68]

/-- A block at address 0x18 in `READY`, with channel 0 selected, before the given environment. -/
def readyOn (c : ConfigRecord) (e : Env) : State :=
  { State.reset with conf := c, addr := 0x18, mode := .ready, cfg := 0x01, env := e }

/-- The reference environment after `INIT 0x18, 0`: configuration 1, the reset flag cleared, the read pointer at the
configuration register (`21_reference_environment.md` R64). -/
def afterInit (c : ConfigRecord) (dev : List (List Identifier)) (feed : List Byte) : RefEnv :=
  { refEnvStart c 0x18 true (nch c) dev 0 feed with st := 0x08, cfg := 0x1, ptr := .config }

def readyRef (c : ConfigRecord) (dev : List (List Identifier)) (feed : List Byte) : State :=
  readyOn c (.ref (afterInit c dev feed))

def stateOf : Host.Outcome State Fault Refusal → Option State
  | .next t => some t
  | .fault _ => none
  | .refused _ => none

def outcomeOf (o : Host.Outcome State Fault Refusal) : Option (HostOutcome Value) := (stateOf o).bind (·.outcome)
def traceOf (o : Host.Outcome State Fault Refusal) : Option (List TransportOp) := (stateOf o).map (·.trace)
def modeOf (o : Host.Outcome State Fault Refusal) : Option Mode := (stateOf o).map (·.mode)
def refOf (o : Host.Outcome State Fault Refusal) : Option RefEnv :=
  (stateOf o).bind fun t => match t.env with
    | .ref e => some e
    | .script _ => none

/-- `Wxx` and `Rxx` of `00_scope.md` R13, at address 0x18. -/
def w (b : Byte) : TransportOp := .wr 0x18 b
def r (v : Byte) : TransportOp := .rd 0x18 v

/-! ### WellFormed refuses the ill-formed -/

theorem test_wf_addr : wellFormed confMulti (.init 0x80 0) = false := by decide
theorem test_wf_init_channel : wellFormed confMulti (.init 0x18 8) = false := by decide
theorem test_wf_channel_single : wellFormed confSingle (.selch 1) = false := by decide
theorem test_wf_channel_multi : wellFormed confMulti (.selch 8) = false ∧ wellFormed confMulti (.selch 7) = true := by
  decide
theorem test_wf_crc8 : wellFormed confSingle (.crc8 (List.replicate 256 0)) = false ∧
    wellFormed confSingle (.crc8 (List.replicate 255 0)) = true := by decide +kernel
theorem test_wf_pointer : wellFormed confSingle (.srp 0x00) = false := by decide
theorem test_wf_config : wellFormed confSingle (.wcfg 0x01) = false ∧ wellFormed confSingle (.wcfg 0xE1) = true := by
  decide
theorem test_wf_channel_code : wellFormed confMulti (.chsl 0x00) = false := by decide
theorem test_wf_channel_code_single : wellFormed confSingle (.chsl 0xF0) = false := by decide
theorem test_wf_direction : wellFormed confSingle (.w1t 0x01) = false ∧ wellFormed confSingle (.w1t 0x80) = true := by
  decide
theorem test_wf_poll_max : configWellFormed (defaultConf .single 0) = false := by decide
theorem test_wf_addr_width : configWellFormed { confSingle with addrW := 9 } = false := by decide
theorem test_wf_codes_b : configWellFormed { confSingle with cmdSRP := 0xF0 } = false := by decide
theorem test_wf_codes_w : configWellFormed { confSingle with romMatch := 0xF0 } = false := by decide
theorem test_wf_pointers : configWellFormed { confSingle with ptrData := 0xF0 } = false := by decide
theorem test_wf_status_bits : configWellFormed { confSingle with stPPD := 0 } = false := by decide
theorem test_wf_channel_codes :
    configWellFormed { confMulti with chcode := Vector.replicate 8 0 } = false := by decide
theorem test_wf_default : configWellFormed confSingle = true ∧ configWellFormed confMulti = true := by decide

/-! ### Decoding: one word of every row, bit by bit from `30_encoding.md` R81, R88, R92 -/

theorem test_decode_init : decode confMulti .H [0b00000001, 0b00011000, 0b00000011] = .ok (.init 0x18 3, []) := by rfl
theorem test_decode_selch : decode confMulti .H [0b00000010, 0b00000101] = .ok (.selch 5, []) := by rfl
theorem test_decode_owreset : decode confMulti .H [0b00010000] = .ok (.owreset, []) := by rfl
theorem test_decode_owwrite : decode confMulti .H [0b00010001, 0b11001100] = .ok (.owwrite 0xCC, []) := by rfl
theorem test_decode_owread : decode confMulti .H [0b00010010] = .ok (.owread, []) := by rfl
theorem test_decode_matchrom :
    decode confMulti .H [0b00010011, 0x28, 0xFF, 0x4A, 0x1C, 0x00, 0x00, 0x01, 0x68] = .ok (.matchrom idB, []) := by rfl
theorem test_decode_search : decode confMulti .H [0b00100000] = .ok (.search, []) := by rfl
theorem test_decode_crc8 : decode confMulti .H [0b00110000, 0b00000010, 0xAA, 0xBB] = .ok (.crc8 [0xAA, 0xBB], []) := by
  rfl
theorem test_decode_drst : decode confMulti .B [0b11110000] = .ok (.drst, []) := by rfl
theorem test_decode_srp : decode confMulti .B [0b11100001, 0b11110000] = .ok (.srp 0xF0, []) := by rfl
theorem test_decode_wcfg : decode confMulti .B [0b11010010, 0b11100001] = .ok (.wcfg 0xE1, []) := by rfl
theorem test_decode_chsl : decode confMulti .B [0b11000011, 0b10100101] = .ok (.chsl 0xA5, []) := by rfl
theorem test_decode_w1rs : decode confMulti .B [0b10110100] = .ok (.w1rs, []) := by rfl
theorem test_decode_w1wb : decode confMulti .B [0b10100101, 0b01010101] = .ok (.w1wb 0x55, []) := by rfl
theorem test_decode_w1rb : decode confMulti .B [0b10010110] = .ok (.w1rb, []) := by rfl
theorem test_decode_w1t : decode confMulti .B [0b01111000, 0b10000000] = .ok (.w1t 0x80, []) := by rfl
theorem test_decode_w1sb : decode confMulti .B [0b10000111, 0b10000000] = .ok (.w1sb 0x80, []) := by rfl
theorem test_decode_rom_match :
    decode confMulti .W [0b01010101, 0x28, 0xFF, 0x4A, 0x1C, 0x00, 0x00, 0x00, 0x36] = .ok (.romMatch idA, []) := by rfl
theorem test_decode_rom_search : decode confMulti .W [0b11110000] = .ok (.romSearch, []) := by rfl

/-- Reserved byte 0, a short packet, a `CRC8` packet with too few data bytes, no byte at all (R83). -/
theorem test_decode_refusals :
    decode confMulti .H [0x7F] = .error (.unknownOpcode 0x7F) ∧ decode confMulti .H [0x01, 0x18] = .error (.shortPacket 0x01) ∧
    decode confMulti .H [0x30, 0x03, 0xAA, 0xBB] = .error (.shortPacket 0x30) ∧ decode confMulti .H [] = .error .emptyPacket := by
  exact ⟨rfl, rfl, rfl, rfl⟩

/-- The table's own numbers (`spec/opcode_table.json`). -/
theorem test_table_words :
    [0x01, 0x02, 0x10, 0x11, 0x12, 0x20, 0xF0, 0xE1, 0xD2, 0xC3, 0xB4, 0xA5, 0x96, 0x78, 0x87].map (decodeTableWord 8) =
      [some (.init 0 0), some (.selch 0), some .owreset, some (.owwrite 0), some .owread, some .search, some .drst,
        some (.srp 0), some (.wcfg 0), some (.chsl 0), some .w1rs, some (.w1wb 0), some .w1rb, some (.w1t 0),
        some (.w1sb 0)] := by decide +kernel
theorem test_table_long_words :
    decodeTableWord 8 0x13 = some (.matchrom zeroId) ∧ decodeTableWord 8 0x55 = some (.romMatch zeroId) ∧
      decodeTableWord 32 0xBBAA0230 = some (.crc8 [0xAA, 0xBB]) := by decide +kernel
theorem test_fetch_word : outcomeOf (step ((readyRef confSingle [[idA]] []).withFetchWord 8 0x10)) =
    some (.ok (.bit true)) := by decide +kernel

/-- The channel tables by the formulas of `30_encoding.md` R90. -/
theorem test_channel_tables : (List.range 8).all (fun k =>
    let c := BitVec.ofNat 4 k
    channelCode confMulti (BitVec.ofNat 3 k) == (~~~ c) ++ c &&
      channelEcho confMulti (BitVec.ofNat 3 k) == (2#2) ++ (~~~ (c.setWidth 3)) ++ c.setWidth 3) = true := by decide
/-- The configuration byte as written, by `10_state.md` R35. -/
theorem test_config_byte : confMulti.cfgInitW = (~~~ 0x1#4) ++ 0x1#4 ∧ confMulti.cfgInit = 0#4 ++ 0x1#4 := by decide

/-! ### The instructions, from the spec's worked examples -/

/-- `40_bridge_controller.md` R104. -/
theorem test_init_multi :
    traceOf (exec (.init 0x18 3) { State.reset with conf := confMulti, env := .ref (refEnvStart confMulti 0x18 true 8 [] 0 []) }) =
      some [w 0xF0, r 0x18, w 0xD2, w 0xE1, r 0x01, w 0xE1, w 0xF0, r 0x08, w 0xC3, w 0xC3, r 0xA3] := by decide +kernel
/-- `40_bridge_controller.md` R124. -/
theorem test_init_wrong_echo :
    let o := exec (.init 0x18 2) { State.reset with conf := confMulti, env := .ref (refEnvStart confMulti 0x18 true 1 [] 0 []) }
    outcomeOf o = some (.err .initialization) ∧ modeOf o = some .uninit := by decide +kernel
/-- `40_bridge_controller.md` R110. -/
theorem test_selch :
    traceOf (exec (.selch 5) { readyRef confMulti [] [] with ch := 3 }) =
      some [w 0xE1, w 0xF0, r 0x08, w 0xC3, w 0xA5, r 0x95] := by decide +kernel
/-- `40_bridge_controller.md` R111. -/
theorem test_selch_single : outcomeOf (exec (.selch 1) (readyRef confSingle [] [])) = some (.refused .badOperand) := by
  decide +kernel
/-- `41_onewire_bus.md` R131. -/
theorem test_owreset : traceOf (exec .owreset (readyRef confSingle [[idA]] [])) =
    some [w 0xE1, w 0xF0, r 0x08, w 0xB4, w 0xE1, w 0xF0, r 0x0A] := by decide +kernel
theorem test_owreset_empty : outcomeOf (exec .owreset (readyRef confSingle [[]] [])) = some (.ok (.bit false)) := by
  decide +kernel
/-- `41_onewire_bus.md` R133. -/
theorem test_owwrite : traceOf (exec (.owwrite 0xCC) (readyRef confSingle [[idA]] [])) =
    some [w 0xE1, w 0xF0, r 0x08, w 0xA5, w 0xCC, w 0xE1, w 0xF0, r 0x08] := by decide +kernel
theorem test_owwrite_failure :
    let o := exec (.owwrite 0x44) (readyOn confSingle (.ref { afterInit confSingle [[idA]] [] with failAt := some 4 }))
    traceOf o = some [w 0xE1, w 0xF0, r 0x08, w 0xA5, .failed] ∧ outcomeOf o = some (.err .transport) ∧
      modeOf o = some .dirty := by decide +kernel
/-- `41_onewire_bus.md` R135. -/
theorem test_owread : traceOf (exec .owread (readyRef confSingle [[idA]] [])) =
    some [w 0xE1, w 0xF0, r 0x08, w 0x96, w 0xE1, w 0xF0, r 0x08, w 0xE1, w 0xE1, r 0xFF] := by decide +kernel
theorem test_owread_feed : outcomeOf (exec .owread (readyRef confSingle [[idA]] [0x91])) = some (.ok (.byte 0x91)) := by
  decide +kernel
/-- `41_onewire_bus.md` R137. -/
theorem test_matchrom :
    let o := exec (.matchrom idB) (readyRef confSingle [[idA, idB]] [])
    outcomeOf o = some (.ok (.bit true)) ∧ (refOf o).map (·.part) = some [idB] := by decide +kernel
theorem test_matchrom_empty : traceOf (exec (.matchrom idB) (readyRef confSingle [[]] [])) =
    some [w 0xE1, w 0xF0, r 0x08, w 0xB4, w 0xE1, w 0xF0, r 0x08] := by decide +kernel
/-- `42_rom_search.md` R163, position 48 of pass 2: the bit taken is 1 and the discrepancy is resolved. -/
theorem test_search_step :
    (match searchStep 48 (-1) (readyOn confSingle (.ref { afterInit confSingle [] [] with
        st := 0x0A, rom := .search, k := 48, part := [idA, idB] }) |>.setLd 48 |>.setCand idA) with
      | .ok n t => some (n, idBit t.cand 48, t.st)
      | .error _ _ => none) = some (-1, true, 0x8A) := by decide +kernel
/-- `42_rom_search.md` R162 (a), one device, and R155, every triplet answers (1, 1). -/
theorem test_search :
    outcomeOf (exec .search (readyRef confSingle [[idA]] [])) = some (.ok (.ids [idA])) ∧
    outcomeOf (exec .search (readyOn confSingle (.script (List.replicate 40 (.ack 0x62))))) = some (.err .noDevice) ∧
    modeOf (exec .search (readyOn confSingle (.script (List.replicate 40 (.ack 0x62))))) = some .ready := by
  decide +kernel
/-- `43_checksum.md` R175. -/
theorem test_crc8 : outcomeOf (exec (.crc8 [0x28, 0xFF, 0x4A, 0x1C, 0x00, 0x00, 0x00]) (readyRef confSingle [] [])) =
    some (.ok (.byte 0x36)) := by decide +kernel
/-- `43_checksum.md` R170: no byte. -/
theorem test_crc8_empty : outcomeOf (exec (.crc8 []) (readyRef confSingle [] [])) = some (.ok (.byte 0)) := by
  decide +kernel
/-- `21_reference_environment.md` R65. -/
theorem test_drst : (refOf (exec .drst (readyRef confMulti [[idA]] []))).map (fun e => (e.st, e.cfg, e.ptr)) =
    some (0x18, 0x0, .status) := by decide +kernel
/-- `21_reference_environment.md` R64. -/
theorem test_srp : (refOf (exec (.srp 0xE1) (readyRef confMulti [] []))).map (·.ptr) = some .data := by decide +kernel
theorem test_wcfg : (refOf (exec (.wcfg 0x2D) (readyRef confMulti [] []))).map (·.cfg) = some 0xD := by decide +kernel
theorem test_wcfg_refused : (refOf (exec (.wcfg 0x2C) (readyRef confMulti [] []))).map (·.cfg) = some 0x1 := by
  decide +kernel
theorem test_chsl : (refOf (exec (.chsl 0x96) (readyRef confMulti [] []))).map (·.chan) = some 6 := by decide +kernel
/-- `21_reference_environment.md` R66. -/
theorem test_w1rs : (refOf (exec .w1rs (readyRef confMulti [[idA]] []))).map (fun e => (e.st, e.part, e.rom)) =
    some (0x0A, [idA], .cmd) := by decide +kernel
/-- `21_reference_environment.md` R67: a function command, and the third byte of a match. -/
theorem test_w1wb_match :
    (refOf (exec (.w1wb 0x4A) (readyOn confMulti (.ref { afterInit confMulti [] [] with
      rom := .matching, k := 2, part := [idA, zeroId] })))).map (fun e => (e.part, e.k)) = some ([idA], 3) := by
  decide +kernel
/-- `21_reference_environment.md` R65: a byte read. -/
theorem test_w1rb : (refOf (exec .w1rb (readyRef confMulti [] [0x42, 0x43]))).map (fun e => (e.rd, e.feed)) =
    some (0x42, [0x43]) := by decide +kernel
/-- `41_onewire_bus.md` R140: direction 1 at position 48, where the two differ. -/
theorem test_w1t : (refOf (exec (.w1t 0x80) (readyOn confMulti (.ref { afterInit confMulti [] [] with
      st := 0x0A, rom := .search, k := 48, part := [idA, idB] })))).map (fun e => (e.st, e.part)) = some (0x8A, [idB]) := by
  decide +kernel
/-- `41_onewire_bus.md` R140: direction 0, one device whose bit is 0. -/
theorem test_w1t_zero : (refOf (exec (.w1t 0x00) (readyOn confMulti (.ref { afterInit confMulti [] [] with
      st := 0x0A, rom := .search, k := 0, part := [idA] })))).map (·.st) = some 0x4A := by decide +kernel
/-- `30_encoding.md` R88; the reference environment ignores it (`21_reference_environment.md` R65). -/
theorem test_w1sb : traceOf (exec (.w1sb 0x80) (readyRef confMulti [] [])) = some [w 0x87, w 0x80] := by decide +kernel
/-- `41_onewire_bus.md` R136 without its bus reset. -/
theorem test_rom_match : (refOf (exec (.romMatch idA) (readyOn confMulti (.ref { afterInit confMulti [] [] with
      rom := .cmd, part := [idB, idA] })))).map (fun e => (e.part, e.rom)) = some ([idA], .func) := by decide +kernel
/-- `21_reference_environment.md` R67. -/
theorem test_rom_search : (refOf (exec .romSearch (readyOn confMulti (.ref { afterInit confMulti [] [] with
      rom := .cmd, part := [idB, idA], k := 9 })))).map (fun e => (e.rom, e.k)) = some (.search, 0) := by decide +kernel

/-! ### Refusals, reset and a timeout -/

/-- `60_exceptions.md` R190. -/
theorem test_not_ready : outcomeOf (exec .search { readyRef confSingle [] [] with mode := .dirty }) =
    some (.refused .notReady) := by decide +kernel
/-- `60_exceptions.md` R189: the operand check comes first. -/
theorem test_operand_first : outcomeOf (exec (.selch 8) { readyRef confMulti [] [] with mode := .uninit }) =
    some (.refused .badOperand) := by decide +kernel
/-- `40_bridge_controller.md` R102: `POLL_MAX` = 4 busy reads. -/
theorem test_poll_timeout :
    let o := exec .owreset (readyOn confSingle (.script (List.replicate 6 (.ack 0x0B))))
    traceOf o = some [w 0xE1, w 0xF0, r 0x0B, r 0x0B, r 0x0B, r 0x0B] ∧ outcomeOf o = some (.err .timeout) ∧
      modeOf o = some .dirty := by decide +kernel
/-- `60_exceptions.md` R191. -/
theorem test_block_reset : modeOf (step { readyRef confSingle [] [] with inbox := [.blockReset] }) = some .uninit := by
  decide +kernel
/-- `10_state.md` R38: in `UNINIT` only `INIT` and `CRC8` do anything. -/
theorem test_uninit_fragment : [Instr.drst, .srp 0xF0, .romSearch, .romMatch idA].map (fun i =>
    (outcomeOf (exec i State.reset), traceOf (exec i State.reset))) =
      List.replicate 4 (some (.refused .notReady), some []) := by decide +kernel
/-- `30_encoding.md` R83, the reserved byte 0x7F given as a number. -/
theorem test_fetch_reserved : outcomeOf (step (State.reset.withFetchWord 8 0x7F)) = some (.refused .unknownOp) := by
  decide +kernel
/-- `30_encoding.md` R83. -/
theorem test_unknown_op : outcomeOf (step { readyRef confSingle [] [] with inbox := [.op .H [0x7F]] }) =
    some (.refused .unknownOp) := by decide +kernel

/-! ### Witnesses: states and operands that meet the hypotheses of the statements -/

/-- The machine answers a next state with this outcome. -/
theorem of_outcome {o : Host.Outcome State Fault Refusal} {x : HostOutcome Value} (h : outcomeOf o = some x) :
    ∃ t, o = .next t ∧ t.outcome = some x := by
  cases o with
  | next t => exact ⟨t, rfl, h⟩
  | fault _ => simp [outcomeOf, stateOf] at h
  | refused _ => simp [outcomeOf, stateOf] at h

/-- The machine answers a next state. -/
theorem of_state {o : Host.Outcome State Fault Refusal} (h : (stateOf o).isSome = true) : ∃ t, o = .next t := by
  cases o with
  | next t => exact ⟨t, rfl⟩
  | fault _ => simp [stateOf] at h
  | refused _ => simp [stateOf] at h

/-- Polls of no busy read and of three, the most that `POLL_MAX` = 4 allows; no presence, presence. -/
def quickRun : PollRun := ⟨0x00, 0x00, [], 0x08⟩
def slowRun : PollRun := ⟨0xFF, 0x00, [0x0B, 0x0B, 0xFF], 0x0A⟩
def writeRun : WriteRun := ⟨quickRun, 0x00, 0x00, slowRun⟩

theorem witness_poll_runs : quickRun.ok confMulti ∧ slowRun.ok confMulti ∧ writeRun.ok confMulti ∧
    presenceFlag confMulti quickRun.idle = false ∧ presenceFlag confMulti slowRun.idle = true := by
  simp only [WriteRun.ok, PollRun.ok]
  decide

theorem witness_DecodeOfEncode : codesDistinct confMulti = true ∧ wellFormed confMulti (.init 0x7F 7) = true ∧
    wellFormed confMulti (.crc8 (List.replicate 255 0xFF)) = true ∧ wellFormed confMulti (.chsl 0x87) = true ∧
    wellFormed confMulti (.romMatch idA) = true := by decide +kernel
theorem witness_EncodeOfDecode : decode confMulti .H [0x30, 0x00, 0x55] = .ok (.crc8 [], [0x55]) := by rfl
theorem witness_PacketDecodesExactlyWhenComplete : decode confMulti .H [0x10, 0xAA] = .ok (.owreset, [0xAA]) := by rfl
theorem witness_ReservedOrShortPacketIsRefused :
    ({ State.reset with inbox := [.op .H [0x7F]] } : State).inbox = [.op .H [0x7F]] ∧
    ¬ packetComplete [0x7F] ∧ ¬ packetComplete [0x01, 0x18] ∧ ¬ packetComplete [0x30] ∧ ¬ packetComplete [] := by
  simp [packetComplete, packetLength]
theorem witness_StepRunsDecodedInstruction :
    ({ readyRef confMulti [] [] with inbox := [.op .B [0xE1, 0xF0]] } : State).inbox = [.op .B [0xE1, 0xF0]] ∧
      decode (readyRef confMulti [] []).conf .B [0xE1, 0xF0] = .ok (.srp 0xF0, []) := ⟨rfl, rfl⟩
theorem witness_StepWithoutPacketLeavesBlock : State.reset.inbox = [] ∧
    ({ State.reset with inbox := [.environment (.script [])] } : State).inbox = [.environment (.script [])] := ⟨rfl, rfl⟩
theorem witness_BlockResetLeavesUninit :
    ({ readyRef confMulti [] [] with inbox := [.blockReset] } : State).inbox = [.blockReset] := rfl

theorem witness_RegistersAreWrittenByTheirOwners :
    (∃ t, exec .drst (readyRef confMulti [] []) = .next t) ∧ (∃ t, exec .romSearch (readyRef confMulti [] []) = .next t) ∧
    (∃ t, exec (.crc8 [1]) (readyRef confMulti [] []) = .next t) ∧ (∃ t, exec .owread (readyRef confMulti [] []) = .next t) :=
  ⟨of_state (by decide +kernel), of_state (by decide +kernel), of_state (by decide +kernel), of_state (by decide +kernel)⟩
/-- A failed operation under `INIT` and under another instruction. -/
theorem witness_NoTransportOperationFollowsAFailedOne :
    traceOf (exec (.init 0x18 0) (readyOn confSingle (.script [.nack]))) = some ([] ++ [.failed]) ∧
    traceOf (exec .w1rs (readyOn confSingle (.script [.nack]))) = some ([] ++ [.failed]) := by decide +kernel
theorem witness_OneWireCommandsFollowAnIdlePoll : isHostOp .owreset = true ∧ codesDistinct confSingle = true ∧
    ∃ t, exec .owreset (readyRef confSingle [[idA]] []) = .next t :=
  ⟨by decide, by decide, of_state (by decide +kernel)⟩
theorem witness_AdmissionByMode :
    isHostOp .owreset = true ∧ operandsLegal confSingle .owreset = true ∧ admitted .uninit .owreset = false ∧
      admitted .dirty .owreset = true ∧ ∃ t, exec .owreset (readyRef confSingle [[idA]] []) = .next t :=
  ⟨by decide, by decide, by decide, by decide, of_state (by decide +kernel)⟩
theorem witness_BadOperandIsRefusedInEveryMode : operandsLegal confMulti (.init 0x80 0) = false ∧
    operandsLegal confMulti (.init 0x18 8) = false ∧ operandsLegal confMulti (.selch 8) = false := by decide
theorem witness_RefusedChangesNothing : ∃ t, exec (.selch 8) (readyRef confMulti [] []) = .next t ∧
    t.outcome = some (.refused .badOperand) := of_outcome (by decide +kernel)
/-- One `OK` of each type of value. -/
theorem witness_OutcomesAreTheTable :
    (∃ t, exec (.selch 0) (readyRef confSingle [] []) = .next t ∧ t.outcome = some (.ok .none)) ∧
    (∃ t, exec .owreset (readyRef confSingle [[]] []) = .next t ∧ t.outcome = some (.ok (.bit false))) ∧
    (∃ t, exec .owread (readyRef confSingle [[]] []) = .next t ∧ t.outcome = some (.ok (.byte 0xFF))) ∧
    (∃ t, exec .search (readyRef confSingle [[]] []) = .next t ∧ t.outcome = some (.ok (.ids []))) :=
  ⟨of_outcome (by decide +kernel), of_outcome (by decide +kernel), of_outcome (by decide +kernel),
    of_outcome (by decide +kernel)⟩

/-- `INIT` from `UNINIT`, and `OWRESET` and `INIT` from `DIRTY`. -/
theorem witness_leaving_modes :
    modeOf (step { readyRef confSingle [] [] with mode := .uninit, inbox := [.op .H [0x01, 0x18, 0x00]] }) = some .ready ∧
    modeOf (step { readyRef confSingle [] [] with mode := .dirty, inbox := [.op .H [0x10]] }) = some .ready ∧
    modeOf (step { readyRef confSingle [] [] with mode := .dirty, inbox := [.op .H [0x01, 0x18, 0x00]] }) = some .ready := by
  decide +kernel
theorem idA_valid : idValid confMulti idA = true := by decide +kernel
theorem idB_valid : idValid confMulti idB = true := by decide +kernel
/-- A state that meets the invariant with `LD`, `POS`, `POLLCNT` and `ADDR` at their greatest values. -/
theorem witness_StepKeepsInvariant : ∃ s : State,
    Inv s ∧ s.mode = .ready ∧ s.res = [idA, idB] ∧ ∃ t, step s = .next t := by
  refine ⟨{ readyRef confMulti [] [] with addr := 0x7F, ch := 7, ld := 63, pos := 63, pollcnt := 4, res := [idA, idB] },
    ⟨by simp, by simp, by decide, by decide, ?_, by decide, fun _ => by decide⟩, rfl, rfl, _, rfl⟩
  intro m hm
  rcases List.mem_pair.1 hm with rfl | rfl
  · exact idA_valid
  · exact idB_valid
/-- The operations of `OWRESET` with one busy read (`41_onewire_bus.md` R131), and the same with other bits in every
status byte: all but busy in the first poll and in the busy read, all but busy and presence in the last read. -/
theorem witness_IgnoredStatusBitsDoNotMatter : isHostOp .owreset = true ∧ codesDistinct confMulti = true ∧
    pointersDistinct confMulti = true ∧
    sameButIgnored confMulti .start
      [w 0xE1, w 0xF0, r 0x08, w 0xB4, w 0xE1, w 0xF0, r 0x0B, r 0x0A]
      [w 0xE1, w 0xF0, r 0xFE, w 0xB4, w 0xE1, w 0xF0, r 0xF5, r 0xF6] = true ∧
    AnswersGive [w 0xE1, r 0xFE, .failed] [.ack 0x55, .ack 0xFE, .nack] ∧
    traceOf (exec .owreset (readyOn confMulti (.ref { afterInit confMulti [[idA]] [] with busyN := 1 }))) =
      some ([] ++ [w 0xE1, w 0xF0, r 0x08, w 0xB4, w 0xE1, w 0xF0, r 0x0B, r 0x0A]) := by
  refine ⟨by decide, by decide, by decide, ?_, ?_, by decide +kernel⟩
  · decide
  · exact .cons nofun (.cons rfl (.cons rfl .nil))
/-- A `SEARCH` that hangs: no fuel. -/
theorem witness_IgnoredStatusBits_hang :
    searchProc (readyOn { confMulti with searchFuel := 0 } (.script [])) =
      .ok none (searchFresh (readyOn { confMulti with searchFuel := 0 } (.script []))) := rfl


theorem witness_Crc8ReturnsChecksum : (List.replicate 255 (0 : Byte)).length ≤ 255 := by decide +kernel
theorem witness_Crc8IsLinear : ([1, 2] : List Byte).length = ([3, 4] : List Byte).length ∧ idValid confMulti idA = true ∧
    idA.toList.take 7 = idA.toList.take 7 := by decide +kernel
theorem witness_crc_poly : confMulti.crcPoly = 0x8C := rfl

theorem witness_PollReturnsFirstIdleStatus :
    (readyOn confMulti (.script (quickRun.answers ++ []))).env = .script (quickRun.answers ++ []) ∧
    (readyOn confMulti (.script (slowRun.answers ++ [.nack]))).env = .script (slowRun.answers ++ [.nack]) := ⟨rfl, rfl⟩
/-- `POLL_MAX` = 4, and `POLL_MAX` = 1 with its one read. -/
theorem witness_PollTimesOutAfterPollMaxReads :
    (∀ v ∈ [0x0B, 0x0B, 0x0B] ++ [(0xFF : Byte)], busyFlag confMulti v = true) ∧
    ([0x0B, 0x0B, 0x0B] : List Byte).length + 1 = confMulti.pollMax ∧
    ([] : List Byte).length + 1 = (defaultConf .single 1).pollMax := by decide
/-- The error a procedure raised, and the state it left. -/
def errOf {α : Type} : EStateM.Result Err State α → Option Err
  | .ok _ _ => none
  | .error e _ => some e
def leftBy {α : Type} : EStateM.Result Err State α → State
  | .ok _ t => t
  | .error _ t => t

/-- A poll that returns, one that times out, one whose first write fails. -/
theorem witness_PollReadsAreBounded :
    errOf (pollUntilIdle (readyOn confMulti (.script [.ack 0, .ack 0, .ack 0x08]))) = none ∧
    errOf (pollUntilIdle (readyOn (defaultConf .single 1) (.script [.ack 0, .ack 0, .ack 0x09]))) = some .timeout ∧
    errOf (pollUntilIdle (readyOn confMulti (.script [.nack]))) = some .transport := by decide +kernel

theorem witness_InitOnSingleSucceeds : confSingle.variant = .single ∧ (0x7F : Byte).toNat < 2 ^ confSingle.addrW ∧
    (0x18 : Byte) &&& confSingle.initMask = confSingle.initValue ∧
    (0x10 : Byte) &&& confSingle.initMask = confSingle.initValue := by decide
theorem witness_InitOnMulti8Succeeds : confMulti.variant = .multi8 ∧ (0x7F : Byte).toNat < 2 ^ confMulti.addrW ∧
    (0x00 : Byte).toNat = (0 : Fin 8).val ∧ (0x07 : Byte).toNat = (7 : Fin 8).val ∧
    (0x18 : Byte) &&& confMulti.initMask = confMulti.initValue := by decide
theorem witness_InitEndsReadyOrUninit : (0x7F : Byte).toNat < 2 ^ confMulti.addrW ∧ (0x07 : Byte).toNat < nch confMulti ∧
    (0x00 : Byte).toNat < nch confSingle := by decide
/-- Each way `INIT` stops: its first and its last operation not acknowledged, a busy status, a configuration that reads
zero, `POLL_MAX` = 4 busy reads, and the echo of `40_bridge_controller.md` R124. -/
theorem witness_InitStopsAtUnexpectedAnswer : (0x7F : Byte).toNat < 2 ^ confMulti.addrW ∧
    (0x02 : Byte).toNat = (2 : Fin 8).val ∧ (2 : Fin 8).val < nch confMulti ∧
    InitStops confMulti 0x7F 2 [.failed] ∧
    InitStops confMulti 0x7F 2 ([.wr 0x7F 0xF0, .rd 0x7F 0x18, .wr 0x7F 0xD2, .wr 0x7F 0xE1, .rd 0x7F 0x01] ++
      ([.wr 0x7F 0xE1, .wr 0x7F 0xF0, .rd 0x7F 0x08] ++ [.wr 0x7F 0xC3, .wr 0x7F 0xD2, .failed])) ∧
    InitStops confMulti 0x7F 2 [.wr 0x7F 0xF0, .rd 0x7F 0x19] ∧
    InitStops confMulti 0x7F 2 [.wr 0x7F 0xF0, .rd 0x7F 0x10, .wr 0x7F 0xD2, .wr 0x7F 0xE1, .rd 0x7F 0x00] ∧
    InitStops confMulti 0x7F 2 ([.wr 0x7F 0xF0, .rd 0x7F 0x18, .wr 0x7F 0xD2, .wr 0x7F 0xE1, .rd 0x7F 0x01] ++
      (.wr 0x7F 0xE1 :: .wr 0x7F 0xF0 :: List.replicate 4 (.rd 0x7F 0x09))) ∧
    InitStops confMulti 0x18 2 ([w 0xF0, r 0x18, w 0xD2, w 0xE1, r 0x01] ++
      ([w 0xE1, w 0xF0, r 0x08] ++ [w 0xC3, w 0xD2, r 0xB8])) :=
  ⟨by decide, by decide, by decide,
    .nack 0x18 quickRun 0 (by decide) witness_poll_runs.1 (by decide),
    .nack 0x18 quickRun 10 (by decide) witness_poll_runs.1 (by decide),
    .status 0x19 (by decide), .config 0x10 0x00 (by decide) (by decide),
    .timeout 0x18 (List.replicate 4 0x09) rfl (by decide) (by decide) (by decide),
    .echo 0x18 0xB8 quickRun rfl (by decide) witness_poll_runs.1 (by decide)⟩
/-- The same on `SINGLE`, where the last operation is the configuration read. -/
theorem witness_InitStops_single : InitStops confSingle 0x18 0 [w 0xF0, r 0x18, w 0xD2, w 0xE1, .failed] :=
  .nack 0x18 quickRun 4 (by decide) witness_poll_runs.1 (by decide)
theorem witness_SelchOnSingleDoesNothing : (readyRef confSingle [] []).conf.variant = .single ∧
    (readyRef confSingle [] []).mode = .ready ∧ (0x01 : Byte) ≠ 0 := by decide
theorem witness_SelchEchoMismatchFails : (readyRef confMulti [] []).conf.variant = .multi8 ∧
    (readyRef confMulti [] []).mode = .ready ∧ (0x07 : Byte).toNat = (7 : Fin 8).val ∧
    (0x86 : Byte) ≠ confMulti.checho.get 7 := by decide
/-- The poll fails in both ways, the sequence fails in both ways, and it succeeds. -/
theorem witness_SelchOutcomesByPhase :
    errOf (pollUntilIdle (readyOn confMulti (.script [.nack]))) = some .transport ∧
    errOf (pollUntilIdle (readyOn confMulti (.script (List.replicate 6 (.ack 0x01))))) = some .timeout ∧
    [[.nack], [.ack 0x08], [.ack 0x87]].map (fun e =>
      let p := pollUntilIdle (readyOn confMulti (.script (List.replicate 5 (.ack 0x08) ++ e)))
      (errOf p, errOf (selchSequence (channelBits 7) (leftBy p)))) =
        [(none, some .transport), (none, some .initialization), (none, none)] := by decide +kernel
theorem witness_BridgeCommandsWriteTheirBytes :
    (Instr.w1rb, confMulti.cmd1WRB) ∈ [(Instr.drst, confMulti.cmdDRST), (.w1rs, confMulti.cmd1WRS), (.w1rb, confMulti.cmd1WRB)] ∧
    (readyOn confMulti (.script [.ack 0, .nack])).env = .script (.ack 0 :: .nack :: []) ∧
    (readyOn confMulti (.script [.nack])).env = .script (.nack :: []) ∧
    (readyOn confMulti (.script [.nack])).mode ≠ .uninit ∧ State.reset.mode = .uninit := ⟨by decide, rfl, rfl, nofun, rfl⟩

/-- Scripts for the primitives, from `READY` and `DIRTY`, without and with presence. -/
theorem witness_primitives :
    (readyOn confMulti (.script (quickRun.answers ++ .ack 0 :: (quickRun.answers ++ [])))).mode = .ready ∧
    ({ readyOn confMulti (.script (slowRun.answers ++ .ack 0 :: (slowRun.answers ++ []))) with mode := .dirty } : State).env =
      .script (slowRun.answers ++ .ack 0 :: (slowRun.answers ++ [])) ∧
    (readyOn confMulti (.script (writeRun.answers ++ []))).env = .script (writeRun.answers ++ []) ∧
    (List.replicate 8 writeRun).length = 8 ∧ (∀ x ∈ List.replicate 8 writeRun, x.ok confMulti) := by
  refine ⟨rfl, rfl, rfl, rfl, fun x hx => ?_⟩
  rw [List.eq_of_mem_replicate hx]
  exact witness_poll_runs.2.2.1
/-- `MATCHROM` that ends `OK(1)`, and `OWREAD` after it. -/
theorem witness_MatchromThenOwreadOrder :
    (match exec (.matchrom idA) (readyRef confSingle [[idA]] [0x42]) with
      | .next t => decide (t.outcome = some (.ok (.bit true))) && decide (outcomeOf (exec .owread t) = some (.ok (.byte 0x42)))
      | .fault _ => false
      | .refused _ => false) = true ∧ codesDistinct confSingle = true := by decide +kernel
/-- A refusal, an `OK` and each error, of each kind of operation. -/
theorem witness_ModeMovesByOutcome :
    outcomeOf (exec .owread { readyRef confSingle [] [] with mode := .dirty }) = some (.refused .notReady) ∧
    outcomeOf (exec (.init 0x18 0) (readyRef confSingle [] [])) = some (.ok .none) ∧
    outcomeOf (exec (.init 0x18 0) (readyOn confSingle (.script [.nack]))) = some (.err .initialization) ∧
    outcomeOf (exec (.selch 0) (readyOn confMulti (.script [.nack]))) = some (.err .transport) ∧
    outcomeOf (exec .owread (readyOn confSingle (.script (List.replicate 6 (.ack 0x01))))) = some (.err .timeout) := by
  decide +kernel
/-- A host operation whose last operation is a busy status read: `OWRESET` and `INIT` on `MULTI8`, with `POLL_MAX` = 4,
and a busy status read before another operation. -/
theorem witness_ModeMovesByOutcome_timeout : codesDistinct confMulti = true ∧ pointersDistinct confMulti = true ∧
    traceOf (exec .owreset (readyOn confMulti (.script (List.replicate 6 (.ack 0x0B))))) =
      some ([] ++ [w 0xE1, w 0xF0, r 0x0B, r 0x0B, r 0x0B, r 0x0B]) ∧
    lastRead confMulti [w 0xE1, w 0xF0, r 0x0B, r 0x0B, r 0x0B, r 0x0B] = .busy ∧
    lastRead confMulti [w 0xF0, r 0x18, w 0xD2, w 0xE1, r 0x01, w 0xE1, w 0xF0, r 0x0B] = .busy ∧
    lastRead confMulti [w 0xB4, w 0xE1, w 0xF0, r 0x0A] = .idle := by decide +kernel
/-- A triplet that answers (1, 1), and `POLL_MAX` is not 0. -/
theorem witness_SearchDeliversValidIdentifiers_noDevice : 0 < confMulti.pollMax ∧
    lastRead confMulti [w 0x78, w 0x00, w 0xE1, w 0xF0, r 0x01, r 0x60] = .noDevice ∧
    lastRead confMulti [w 0x78, w 0x00, w 0xE1, w 0xF0, r 0x40] = .idle ∧
    ((traceOf (exec .search (readyOn confSingle (.script (List.replicate 40 (.ack 0x62)))))).map (lastRead confSingle)) =
      some .noDevice := by decide +kernel
theorem witness_SearchOfEmptyBusIsEmpty : 0 < confMulti.searchFuel ∧ 0 < (1 : Nat) := by decide
/-- The first and the last position; the three cases: (1, 1), (0, 0) and one branch. -/
theorem witness_SearchStepFollowsTheThreeCases : (0 < 64) ∧ (63 < 64) ∧
    idBitFlag confMulti 0x60 = true ∧ complementBitFlag confMulti 0x60 = true ∧
    idBitFlag confMulti 0x08 = false ∧ complementBitFlag confMulti 0x08 = false ∧
    idBitFlag confMulti 0x28 ≠ complementBitFlag confMulti 0x28 := by decide
theorem witness_SearchDeliversValidIdentifiers : ∃ t, exec .search (readyRef confSingle [[idA]] []) = .next t ∧
    t.outcome = some (.ok (.ids [idA])) := of_outcome test_search.1

/-- A reference environment that is ready, with `busy` and `busyN` at their greatest values. -/
def busyRef : RefEnv :=
  { afterInit confMulti [[idA], [idA, idB], []] [] with busy := 3, busyN := 3, chan := 1 }
theorem witness_RefReady : RefReady (readyOn confMulti (.ref busyRef)) busyRef :=
  ⟨rfl, rfl, rfl, rfl, rfl, by decide, by decide⟩
theorem witness_reference_environment : configWellFormed confMulti = true ∧ codesDistinct confMulti = true ∧
    (readyOn confMulti (.ref busyRef)).mode = .ready ∧ refAttached busyRef = [idA, idB] ∧ refAttached busyRef ≠ [] ∧
    0 < confMulti.searchFuel ∧ (refAttached busyRef).length ≤ confMulti.searchFuel := by decide +kernel
theorem witness_SearchOneDeviceOnReferenceEnvironment :
    RefReady (readyRef confSingle [[idA]] []) (afterInit confSingle [[idA]] []) ∧
      refAttached (afterInit confSingle [[idA]] []) = [idA] ∧ idValid confSingle idA = true :=
  ⟨⟨rfl, rfl, rfl, rfl, rfl, by decide, by decide⟩, by decide, by decide +kernel⟩
theorem witness_SearchOrderOnReferenceEnvironment : ∃ t, exec .search (readyRef confSingle [[idA]] []) = .next t ∧
    t.outcome = some (.ok (.ids [idA])) := of_outcome test_search.1
/-- `OWWRITE` of each ROM command and of another byte after a reset with presence, of the last byte of a Match ROM, and
of a byte when no ROM command is expected; `OWREAD` with an empty and another feed. -/
theorem witness_OneWirePrimitivesOnReferenceEnvironment :
    (∀ e ∈ [{ busyRef with rom := .cmd }, { busyRef with rom := .matching, k := 7, part := [idA] },
        { busyRef with rom := .func, feed := [0x42] }], RefReady (readyOn confMulti (.ref e)) e) ∧
    (0x44 : Byte) ∉ [confMulti.romSearch, confMulti.romMatch] ∧ (0xF0 : Byte) = confMulti.romSearch ∧
    (0x55 : Byte) = confMulti.romMatch ∧ busyRef.feed = [] ∧ (readyOn confMulti (.ref busyRef)).mode = .ready := by
  refine ⟨?_, by decide, rfl, rfl, rfl, rfl⟩
  simp only [List.forall_mem_cons, List.not_mem_nil, false_implies, implies_true, and_true]
  refine ⟨?_, ?_, ?_⟩ <;> exact ⟨rfl, rfl, rfl, rfl, rfl, by decide, by decide⟩
theorem witness_InitOnReferenceEnvironment : (0 < 4) ∧ (refEnvStart confMulti 0x7F true 8 [] 9 []).ack = true ∧
    (refEnvStart confMulti 0x7F true 8 [] 9 []).failAt = none ∧ (refEnvStart confMulti 0x7F true 8 [] 9 []).pend = .none ∧
    (refEnvStart confMulti 0x7F true 8 [] 9 []).nch = 8 ∧ (0x7F : Byte).toNat < 128 ∧ (0x07 : Byte).toNat < nch confMulti := by
  decide
/-- A search in progress, at its first and its last position. -/
theorem witness_TripletOnReferenceEnvironment :
    RefReady (readyOn confMulti (.ref { busyRef with rom := .search, k := 63, part := [idA, idB] }))
        { busyRef with rom := .search, k := 63, part := [idA, idB] } ∧
      ({ busyRef with rom := .search, k := 63, part := [idA, idB] } : RefEnv).rom = .search :=
  ⟨⟨rfl, rfl, rfl, rfl, rfl, by decide, by decide⟩, rfl⟩
/-- Acknowledged, and not for either reason. -/
theorem witness_DeviceResetOnReferenceEnvironment : busyRef.pend = .none ∧ busyRef.failAt = none ∧ busyRef.ack = true ∧
    busyRef.addr = (readyOn confMulti (.ref busyRef)).addr ∧ ({ busyRef with ack := false } : RefEnv).ack = false ∧
    ({ busyRef with addr := 0x19 } : RefEnv).addr ≠ (readyOn confMulti (.ref busyRef)).addr := by decide
/-- A legal and an illegal parameter of each of `SRP`, `WCFG`, `CHSL`. -/
theorem witness_ParameterCommandsOnReferenceEnvironment :
    (0x00 : Byte) ∉ [confMulti.ptrStatus, confMulti.ptrData, confMulti.ptrChannel, confMulti.ptrConfig] ∧
    (0xE1 : Byte).extractLsb' 4 4 = ~~~ (0xE1 : Byte).extractLsb' 0 4 ∧
    (0x01 : Byte).extractLsb' 4 4 ≠ ~~~ (0x01 : Byte).extractLsb' 0 4 ∧
    (7 : Fin 8).val < busyRef.nch ∧ (0x87 : Byte) = confMulti.chcode.get 7 ∧
    (∀ k : Fin 8, k.val < busyRef.nch → (0x00 : Byte) ≠ confMulti.chcode.get k) := by decide

end Sys2Proof.Tests
end

section
/-! PROOFS. The frame of every instruction (`10_state.md` R20 to R31): which registers it leaves unchanged. Proved once
for every relation between states that the end of an operation respects, then read off for the groups of registers. -/

namespace Sys2Proof.Machine

/-! ### Relations that the end of an operation respects -/

/-- A relation to which delivering an outcome makes no difference. -/
def IgnoresOutcome (R : State → State → Prop) : Prop := ∀ r s t, R s t → R s (deliver r t)

/-- A relation to which the new `MODE` makes no difference. -/
def IgnoresMode (R : State → State → Prop) : Prop := ∀ m s t, R s t → R s (t.setMode m)

section
variable {α : Type} {R : State → State → Prop}

/-- A refusal only delivers an outcome, and a primitive's error moves `MODE` beside it. -/
theorem hostPrim_rel (refl : ∀ s, R s s) (ho : IgnoresOutcome R) (hm : IgnoresMode R) (allowed : List Mode)
    {body : Proc α} (hb : Keeps R body) (s : State) : R s (hostPrim allowed body s).2 := by
  rcases hostPrim_cases allowed body s with ⟨-, h⟩ | ⟨-, v, t, hv, h⟩ | ⟨-, e, t, he, h⟩ <;> rw [h]
  · exact ho _ _ _ (refl s)
  · exact hb.of_ok hv
  · exact ho _ _ _ (hm _ _ _ (hb.of_error he))

theorem endPrim_rel (ho : IgnoresOutcome R) (value : α → Value) {r : HostOutcome α × State} {s : State}
    (h : R s r.2) : R s (endPrim value r) := by
  unfold endPrim
  split
  · exact ho _ _ _ h
  · exact h
  · exact h

theorem runFragment_rel (refl : ∀ s, R s s) (ho : IgnoresOutcome R) {p : Proc Unit} (hp : Keeps R p) (s : State) :
    R s (runFragment p s) := by
  rcases runFragment_cases p s with ⟨-, h⟩ | ⟨-, t, ht, h⟩ | ⟨-, e, t, ht, h⟩ <;> rw [h]
  · exact ho _ _ _ (refl s)
  · exact ho _ _ _ (hp.of_ok ht)
  · exact ho _ _ _ (hp.of_error ht)

/-! ### The instructions that run as fragments -/

/-- A bridge command run as a step is a fragment that writes its bytes (`40_bridge_controller.md` R115 to R123). -/
theorem exec_formatB {i : Instr} (hi : formatOf (opOf i) = .B) (s : State) :
    ∃ p, exec i s = .next (runFragment p s) ∧ Keeps PortFrame p := by
  cases i with
  | drst => exact ⟨_, rfl, cmd0_keeps _⟩
  | srp pointer => exact ⟨_, rfl, cmd1_keeps _ _⟩
  | wcfg config => exact ⟨_, rfl, cmd1_keeps _ _⟩
  | chsl code => exact ⟨_, rfl, cmd1_keeps _ _⟩
  | w1rs => exact ⟨_, rfl, cmd0_keeps _⟩
  | w1wb data => exact ⟨_, rfl, cmd1_keeps _ _⟩
  | w1rb => exact ⟨_, rfl, cmd0_keeps _⟩
  | w1t direction => exact ⟨_, rfl, cmd1_keeps _ _⟩
  | w1sb bit => exact ⟨_, rfl, cmd1_keeps _ _⟩
  | _ => cases hi

/-- A ROM command run as a step is a fragment of byte writes between polls (`41_onewire_bus.md` R136,
`42_rom_search.md` R152). -/
theorem exec_formatW {i : Instr} (hi : formatOf (opOf i) = .W) (s : State) :
    ∃ p, exec i s = .next (runFragment p s) ∧ Keeps BusFrame p := by
  cases i with
  | romMatch id => exact ⟨_, rfl, matchRomBytes_keeps id⟩
  | romSearch => exact ⟨_, rfl, writeByte_keeps _⟩
  | _ => cases hi

theorem exec_fragment {i : Instr} (hi : formatOf (opOf i) ≠ .H) (s : State) :
    ∃ p, exec i s = .next (runFragment p s) ∧ Keeps BusFrame p := by
  cases hf : formatOf (opOf i) with
  | H => exact absurd hf hi
  | B =>
    obtain ⟨p, hx, hp⟩ := exec_formatB hf s
    exact ⟨p, hx, hp.mono fun _ _ => PortFrame.toBusFrame⟩
  | W => exact exec_formatW hf s

theorem exec_formatB_rel (ho : IgnoresOutcome R) (hport : ∀ s t, PortFrame s t → R s t) {i : Instr}
    (hi : formatOf (opOf i) = .B) {s t : State} (h : exec i s = .next t) : R s t := by
  obtain ⟨p, hx, hp⟩ := exec_formatB hi s
  obtain rfl := Host.Outcome.next.inj (hx.symm.trans h)
  exact runFragment_rel (fun s => hport s s (.refl s)) ho (hp.mono hport) s

theorem exec_fragment_rel (ho : IgnoresOutcome R) (hbus : ∀ s t, BusFrame s t → R s t) {i : Instr}
    (hi : formatOf (opOf i) ≠ .H) {s t : State} (h : exec i s = .next t) : R s t := by
  obtain ⟨p, hx, hp⟩ := exec_fragment hi s
  obtain rfl := Host.Outcome.next.inj (hx.symm.trans h)
  exact runFragment_rel (fun s => hbus s s (.refl s)) ho (hp.mono hbus) s

/-! ### The host operations under `host_prim` -/

theorem exec_owreset_rel (ho : IgnoresOutcome R) (hm : IgnoresMode R) (hbus : ∀ s t, BusFrame s t → R s t)
    {s t : State} (h : exec .owreset s = .next t) : R s t := by
  have hR := hostPrim_rel (fun s => hbus s s (.refl s)) ho hm [.ready, .dirty] (busReset_keeps.mono hbus) s
  obtain rfl := Host.Outcome.next.inj h
  rcases hp : hostPrim [.ready, .dirty] busReset s with ⟨r, u⟩
  rw [hp] at hR
  cases r with
  | ok p => exact ho _ _ _ (hm _ _ _ hR)
  | err e => exact hR
  | refused r => exact hR

theorem exec_search_rel (ho : IgnoresOutcome R) (hm : IgnoresMode R) (hsearch : ∀ s t, SearchFrame s t → R s t)
    {s t : State} (h : exec .search s = .next t) : R s t := by
  have hR := hostPrim_rel (fun s => hsearch s s (.refl s)) ho hm [.ready] (searchProc_keeps.mono hsearch) s
  change execSearch s = .next t at h
  unfold execSearch at h
  rcases hp : hostPrim [.ready] searchProc s with ⟨r, u⟩
  rw [hp] at h hR
  match r with
  | .ok (some l) => exact Host.Outcome.next.inj h ▸ ho _ _ _ hR
  | .ok none => cases h
  | .err e => exact Host.Outcome.next.inj h ▸ hR
  | .refused r => exact Host.Outcome.next.inj h ▸ hR

/-- All instructions but `INIT`, `SELCH` and `SEARCH` leave what the OneWireBus leaves, up to `MODE` and outcome. -/
theorem exec_bus_rel (ho : IgnoresOutcome R) (hm : IgnoresMode R) (hbus : ∀ s t, BusFrame s t → R s t) {i : Instr}
    (hinit : ∀ addr ch, i ≠ .init addr ch) (hselch : ∀ ch, i ≠ .selch ch) (hsearch : i ≠ .search)
    {s t : State} (h : exec i s = .next t) : R s t := by
  have refl : ∀ s, R s s := fun s => hbus s s (.refl s)
  have prim {β : Type} (value : β → Value) {body : Proc β} (hb : Keeps BusFrame body) :
      R s (endPrim value (hostPrim [.ready] body s)) :=
    endPrim_rel ho value (hostPrim_rel refl ho hm _ (hb.mono hbus) s)
  cases i with
  | init addr ch => exact absurd rfl (hinit addr ch)
  | selch ch => exact absurd rfl (hselch ch)
  | owreset => exact exec_owreset_rel ho hm hbus h
  | owwrite b => exact Host.Outcome.next.inj h ▸ prim _ (writeByte_keeps b)
  | owread => exact Host.Outcome.next.inj h ▸ prim _ readByte_keeps
  | matchrom id => exact Host.Outcome.next.inj h ▸ prim _ (matchRom_keeps id)
  | search => exact absurd rfl hsearch
  | crc8 data => exact Host.Outcome.next.inj h ▸ ho _ _ _ (refl s)
  | _ => exact exec_fragment_rel ho hbus (by simp [opOf, formatOf]) h

end

/-! ### The groups of registers -/

/-- The configuration record, the inbox and the registers of the BridgeController (`10_state.md` R21 to R23) are
unchanged. -/
structure ControllerFrame (s t : State) : Prop where
  conf : t.conf = s.conf
  inbox : t.inbox = s.inbox
  addr : t.addr = s.addr
  ch : t.ch = s.ch
  cfg : t.cfg = s.cfg

/-- The configuration record, the inbox and the registers of the ROMSearchEngine (`10_state.md` R25 to R29) are
unchanged. -/
structure EngineFrame (s t : State) : Prop where
  conf : t.conf = s.conf
  inbox : t.inbox = s.inbox
  ld : t.ld = s.ld
  cand : t.cand = s.cand
  res : t.res = s.res
  pos : t.pos = s.pos

theorem ControllerFrame.ignoresOutcome : IgnoresOutcome ControllerFrame :=
  fun _ _ _ h => ⟨h.conf, h.inbox, h.addr, h.ch, h.cfg⟩

theorem ControllerFrame.ignoresMode : IgnoresMode ControllerFrame :=
  fun _ _ _ h => ⟨h.conf, h.inbox, h.addr, h.ch, h.cfg⟩

theorem EngineFrame.ignoresOutcome : IgnoresOutcome EngineFrame :=
  fun _ _ _ h => ⟨h.conf, h.inbox, h.ld, h.cand, h.res, h.pos⟩

theorem EngineFrame.ignoresMode : IgnoresMode EngineFrame :=
  fun _ _ _ h => ⟨h.conf, h.inbox, h.ld, h.cand, h.res, h.pos⟩

theorem SearchFrame.toControllerFrame {s t : State} (h : SearchFrame s t) : ControllerFrame s t :=
  ⟨h.conf, h.inbox, h.addr, h.ch, h.cfg⟩

theorem BusFrame.toControllerFrame {s t : State} (h : BusFrame s t) : ControllerFrame s t :=
  h.toSearchFrame.toControllerFrame

theorem BusFrame.toEngineFrame {s t : State} (h : BusFrame s t) : EngineFrame s t :=
  ⟨h.conf, h.inbox, h.ld, h.cand, h.res, h.pos⟩

/-- No error loses a register of the ROMSearchEngine. -/
theorem EngineFrame.takeError {s t : State} (h : EngineFrame s t) (site : ErrorSite) (e : Err) :
    EngineFrame s (takeError site e t) := by
  obtain ⟨hconf, hinbox, hld, hcand, hres, hpos⟩ := h
  constructor <;> simpa

/-! ### `INIT` and `SELCH` -/

theorem execInit_engineFrame {addr ch : Byte} {s t : State} (h : exec (.init addr ch) s = .next t) :
    EngineFrame s t := by
  obtain rfl := Host.Outcome.next.inj h
  split
  · unfold initAccepted
    have accepted {u : State} (hu : InitFrame ((s.setMode .uninit).setAddr (addrBits s.conf addr)) u) :
        EngineFrame s u := ⟨hu.conf, hu.inbox, hu.ld, hu.cand, hu.res, hu.pos⟩
    split
    next u hu =>
      obtain ⟨hconf, hinbox, hld, hcand, hres, hpos⟩ := accepted ((initBody_keeps _).of_ok hu)
      exact ⟨hconf, hinbox, hld, hcand, hres, hpos⟩
    next e u hu => exact (accepted ((initBody_keeps _).of_error hu)).takeError .init e
  · exact ⟨rfl, rfl, rfl, rfl, rfl, rfl⟩

/-- The ends of `SELCH`: nothing but the outcome changes (refused, or on `SINGLE`), or the body ran up to a state `u`
and ended in an error or selected the channel (`40_bridge_controller.md` R110 to R113). -/
theorem execSelch_cases {ch : Byte} {s t : State} (h : exec (.selch ch) s = .next t) :
    (∃ r, t = deliver r s) ∨ ∃ u, BusFrame s u ∧
      ((∃ site e, t = takeError site e u ∧ reportedError site e = e) ∨
        t = deliver (.ok .none) (u.setCh (channelBits ch))) := by
  obtain rfl := Host.Outcome.next.inj h
  split
  · split
    · unfold selchReady
      split
      · exact .inl ⟨_, rfl⟩
      · unfold selchMulti
        split
        next e u hu => exact .inr ⟨u, pollUntilIdle_keeps.of_error hu, .inl ⟨_, e, rfl, rfl⟩⟩
        next v u hu =>
          have poll : BusFrame s u := pollUntilIdle_keeps.of_ok hu
          split
          next e w hw =>
            exact .inr ⟨w, poll.trans _ _ _ ((selchSequence_keeps _).of_error hw), .inl ⟨_, e, rfl, rfl⟩⟩
          next w hw => exact .inr ⟨w, poll.trans _ _ _ ((selchSequence_keeps _).of_ok hw), .inr rfl⟩
    · exact .inl ⟨_, rfl⟩
  · exact .inl ⟨_, rfl⟩

theorem execSelch_engineFrame {ch : Byte} {s t : State} (h : exec (.selch ch) s = .next t) : EngineFrame s t := by
  rcases execSelch_cases h with ⟨r, rfl⟩ | ⟨u, hu, ⟨site, e, rfl, -⟩ | rfl⟩
  · exact ⟨rfl, rfl, rfl, rfl, rfl, rfl⟩
  · exact hu.toEngineFrame.takeError site e
  · exact ⟨hu.conf, hu.inbox, hu.ld, hu.cand, hu.res, hu.pos⟩

theorem execSelch_addr {ch : Byte} {s t : State} (h : exec (.selch ch) s = .next t) : t.addr = s.addr := by
  rcases execSelch_cases h with ⟨r, rfl⟩ | ⟨u, hu, ⟨site, e, rfl, -⟩ | rfl⟩
  · rfl
  · exact (takeError_addr site e u).trans hu.addr
  · exact hu.addr

/-- `SELCH` loses `CFG` only where it ends in `InitializationError` (log 26). -/
theorem execSelch_cfg {ch : Byte} {s t : State} (h : exec (.selch ch) s = .next t)
    (hne : t.outcome ≠ some (.err .initialization)) : t.cfg = s.cfg := by
  rcases execSelch_cases h with ⟨r, rfl⟩ | ⟨u, hu, ⟨site, e, rfl, -⟩ | rfl⟩
  · rfl
  · have hreported : reportedError site e ≠ .initialization := fun he => hne (by simp [he])
    exact (takeError_cfg site e u hreported).trans hu.cfg
  · exact hu.cfg

/-! ### Every instruction -/

theorem exec_controllerFrame {i : Instr} (hinit : ∀ addr ch, i ≠ .init addr ch) (hselch : ∀ ch, i ≠ .selch ch)
    {s t : State} (h : exec i s = .next t) : ControllerFrame s t := by
  by_cases hsearch : i = .search
  · subst hsearch
    exact exec_search_rel ControllerFrame.ignoresOutcome ControllerFrame.ignoresMode
      (fun _ _ => SearchFrame.toControllerFrame) h
  · exact exec_bus_rel ControllerFrame.ignoresOutcome ControllerFrame.ignoresMode
      (fun _ _ => BusFrame.toControllerFrame) hinit hselch hsearch h

theorem exec_engineFrame {i : Instr} (hsearch : i ≠ .search) {s t : State} (h : exec i s = .next t) :
    EngineFrame s t := by
  by_cases hinit : ∃ addr ch, i = .init addr ch
  · obtain ⟨addr, ch, rfl⟩ := hinit
    exact execInit_engineFrame h
  by_cases hselch : ∃ ch, i = .selch ch
  · obtain ⟨ch, rfl⟩ := hselch
    exact execSelch_engineFrame h
  push Not at hinit hselch
  exact exec_bus_rel EngineFrame.ignoresOutcome EngineFrame.ignoresMode (fun _ _ => BusFrame.toEngineFrame)
    hinit hselch hsearch h

theorem exec_conf_inbox {i : Instr} {s t : State} (h : exec i s = .next t) : t.conf = s.conf ∧ t.inbox = s.inbox := by
  by_cases hsearch : i = .search
  · have hc := exec_controllerFrame (by simp [hsearch]) (by simp [hsearch]) h
    exact ⟨hc.conf, hc.inbox⟩
  · have he := exec_engineFrame hsearch h
    exact ⟨he.conf, he.inbox⟩

theorem exec_addr {i : Instr} (hinit : ∀ addr ch, i ≠ .init addr ch) {s t : State} (h : exec i s = .next t) :
    t.addr = s.addr := by
  by_cases hselch : ∃ ch, i = .selch ch
  · obtain ⟨ch, rfl⟩ := hselch
    exact execSelch_addr h
  · exact (exec_controllerFrame hinit (not_exists.1 hselch) h).addr

/-- `CFG` is lost in a `SELCH` only where that reports `InitializationError` (log 26). -/
theorem exec_cfg {i : Instr} (hinit : ∀ addr ch, i ≠ .init addr ch) {s t : State} (h : exec i s = .next t)
    (hkeep : (∀ ch, i ≠ .selch ch) ∨ t.outcome ≠ some (.err .initialization)) : t.cfg = s.cfg := by
  by_cases hselch : ∃ ch, i = .selch ch
  · obtain ⟨ch, rfl⟩ := hselch
    exact execSelch_cfg h (hkeep.resolve_left fun hne => hne ch rfl)
  · exact (exec_controllerFrame hinit (not_exists.1 hselch) h).cfg

/-- The bridge commands and `CRC8` run no poll. -/
theorem exec_poll_registers {i : Instr} (hi : formatOf (opOf i) = .B ∨ ∃ d, i = .crc8 d) {s t : State}
    (h : exec i s = .next t) : t.pollcnt = s.pollcnt ∧ t.st = s.st := by
  rcases hi with hB | ⟨d, rfl⟩
  · exact exec_formatB_rel (R := fun s t => t.pollcnt = s.pollcnt ∧ t.st = s.st) (fun _ _ _ h => h)
      (fun _ _ hp => ⟨hp.pollcnt, hp.st⟩) hB h
  · obtain rfl := Host.Outcome.next.inj h
    exact ⟨rfl, rfl⟩

/-- `MODE` belongs to the host operation around a fragment (log 9), and `CRC8` has no effect on it. -/
theorem exec_mode {i : Instr} (hi : formatOf (opOf i) ≠ .H ∨ ∃ d, i = .crc8 d) {s t : State}
    (h : exec i s = .next t) : t.mode = s.mode := by
  rcases hi with hf | ⟨d, rfl⟩
  · exact exec_fragment_rel (R := fun s t => t.mode = s.mode) (fun _ _ _ h => h) (fun _ _ hp => hp.mode) hf h
  · obtain rfl := Host.Outcome.next.inj h
    rfl

/-- Settles O10: one clause for each group of registers, each from the frame of the instructions that do not own it. -/
theorem registersAreWrittenByTheirOwners : Obligations.RegistersAreWrittenByTheirOwners := by
  intro i s t h
  obtain ⟨hconf, hinbox⟩ := exec_conf_inbox h
  refine ⟨hconf, hinbox, fun hinit => ⟨exec_addr hinit h, exec_cfg hinit h⟩,
    fun hinit hselch => (exec_controllerFrame hinit hselch h).ch, fun hsearch => ?_,
    fun hi => exec_poll_registers hi h, fun hi => exec_mode hi h⟩
  obtain ⟨-, -, hld, hcand, hres, hpos⟩ := exec_engineFrame hsearch h
  exact ⟨hld, hcand, hres, hpos⟩

end Sys2Proof.Machine
end

section
/-! PROOFS. What the procedures of the block are made of, how the operations under `host_prim` end, and the ranges of
the registers that procedures keep (`10_state.md` R26 to R30). -/

namespace Sys2Proof.Machine

open Sys2Proof.Safety

/-! ### The procedures of the OneWireBus -/

/-- Transport operations and polls, one after the other: what the procedures of the OneWireBus are made of
(`40_bridge_controller.md` R101, R103, `41_onewire_bus.md`). -/
inductive BusProc : {α : Type} → Proc α → Prop
  | tRead : BusProc tRead
  | tWrite (b : Byte) : BusProc (tWrite b)
  | poll : BusProc pollUntilIdle
  | getConf : BusProc getConf
  | pure {α : Type} (a : α) : BusProc (pure a : Proc α)
  | throw {α : Type} (e : Err) : BusProc (throw e : Proc α)
  | bind {α β : Type} {x : Proc α} {f : α → Proc β} : BusProc x → (∀ a, BusProc (f a)) → BusProc (x >>= f)

/-- What transport operations and polls keep, every procedure made of them keeps. -/
theorem BusProc.keeps {R : State → State → Prop} (refl : ∀ s, R s s) (trans : ∀ s t u, R s t → R t u → R s u)
    (port : ∀ s t, PortFrame s t → R s t) (poll : Keeps R pollUntilIdle) {α : Type} {p : Proc α} (h : BusProc p) :
    Keeps R p := by
  induction h with
  | tRead => exact tRead_keeps.mono port
  | tWrite b => exact (tWrite_keeps b).mono port
  | poll => exact poll
  | getConf => exact Keeps.getConf refl
  | pure a => exact Keeps.pure refl a
  | throw e => exact Keeps.throw refl e
  | bind _ _ hx hf => exact hx.bind trans hf

theorem BusProc.busFrame {α : Type} {p : Proc α} (h : BusProc p) : Keeps BusFrame p :=
  h.keeps BusFrame.refl BusFrame.trans (fun _ _ => PortFrame.toBusFrame) pollUntilIdle_keeps

theorem cmd1_busProc (c p : Byte) : BusProc (cmd1 c p) := (BusProc.tWrite c).bind fun _ => .tWrite p

theorem busReset_busProc : BusProc busReset :=
  BusProc.getConf.bind fun _ => BusProc.poll.bind fun _ => (BusProc.tWrite _).bind fun _ =>
    BusProc.poll.bind fun _ => .pure _

theorem writeByte_busProc (b : Byte) : BusProc (writeByte b) :=
  BusProc.getConf.bind fun _ => BusProc.poll.bind fun _ => (cmd1_busProc _ _).bind fun _ =>
    BusProc.poll.bind fun _ => .pure _

theorem writeBytes_busProc (bs : List Byte) : BusProc (writeBytes bs) := by
  induction bs with
  | nil => exact .pure _
  | cons b bs ih => exact (writeByte_busProc b).bind fun _ => ih

theorem readByte_busProc : BusProc readByte :=
  BusProc.getConf.bind fun _ => BusProc.poll.bind fun _ => (BusProc.tWrite _).bind fun _ =>
    BusProc.poll.bind fun _ => (cmd1_busProc _ _).bind fun _ => .tRead

theorem matchRomBytes_busProc (id : Identifier) : BusProc (matchRomBytes id) :=
  BusProc.getConf.bind fun _ => (writeByte_busProc _).bind fun _ => writeBytes_busProc _

theorem matchRom_busProc (id : Identifier) : BusProc (matchRom id) := by
  refine busReset_busProc.bind fun p => ?_
  split
  · exact (matchRomBytes_busProc id).bind fun _ => .pure _
  · exact .pure _

theorem searchTriplet_busProc (dir : Bool) : BusProc (searchTriplet dir) :=
  BusProc.getConf.bind fun _ => BusProc.poll.bind fun _ => (cmd1_busProc _ _).bind fun _ =>
    BusProc.poll.bind fun _ => .pure _

theorem selchSequence_busProc (ch : BitVec 3) : BusProc (selchSequence ch) := by
  refine BusProc.getConf.bind fun _ => (cmd1_busProc _ _).bind fun _ => BusProc.tRead.bind fun e => ?_
  split
  · exact .throw _
  · exact .pure _

theorem exec_fragment_busProc {i : Instr} (hi : formatOf (opOf i) ≠ .H) (s : State) :
    ∃ p, exec i s = .next (runFragment p s) ∧ BusProc p := by
  cases i with
  | drst => exact ⟨_, rfl, .tWrite _⟩
  | srp pointer => exact ⟨_, rfl, cmd1_busProc _ _⟩
  | wcfg config => exact ⟨_, rfl, cmd1_busProc _ _⟩
  | chsl code => exact ⟨_, rfl, cmd1_busProc _ _⟩
  | w1rs => exact ⟨_, rfl, .tWrite _⟩
  | w1wb data => exact ⟨_, rfl, cmd1_busProc _ _⟩
  | w1rb => exact ⟨_, rfl, .tWrite _⟩
  | w1t direction => exact ⟨_, rfl, cmd1_busProc _ _⟩
  | w1sb bit => exact ⟨_, rfl, cmd1_busProc _ _⟩
  | romMatch id => exact ⟨_, rfl, matchRomBytes_busProc id⟩
  | romSearch => exact ⟨_, rfl, writeByte_busProc _⟩
  | _ => exact absurd rfl hi

/-! ### The ends of the host operations under `host_prim` -/

/-- How an operation under `host_prim` ends (`41_onewire_bus.md` R129, `60_exceptions.md` R191, R192): refused, with
what `finish` makes of the value its body returned, or with the body's error. -/
inductive PrimEnd {α : Type} (allowed : List Mode) (body : Proc α) (finish : α → State → State) (s : State) :
    State → Prop
  | refused (hm : s.mode ∉ allowed) : PrimEnd allowed body finish s (refuse .notReady s)
  | ok (hm : s.mode ∈ allowed) {v : α} {t : State} (h : body s = .ok v t) : PrimEnd allowed body finish s (finish v t)
  | err (hm : s.mode ∈ allowed) {e : Err} {t : State} (h : body s = .error e t) :
    PrimEnd allowed body finish s (takeError .primitive e t)

theorem endPrim_primEnd {α : Type} (allowed : List Mode) (body : Proc α) (value : α → Value) (s : State) :
    PrimEnd allowed body (fun v => deliver (.ok (value v))) s (endPrim value (hostPrim allowed body s)) := by
  rcases hostPrim_cases allowed body s with ⟨hm, h⟩ | ⟨hm, v, t, hv, h⟩ | ⟨hm, e, t, he, h⟩ <;> rw [h]
  · exact .refused hm
  · exact .ok hm hv
  · exact .err hm he

theorem execOwreset_primEnd {s t : State} (h : exec .owreset s = .next t) :
    PrimEnd [.ready, .dirty] busReset (fun p u => deliver (.ok (.bit p)) (recover u)) s t := by
  obtain rfl := Host.Outcome.next.inj h
  rcases hostPrim_cases [.ready, .dirty] busReset s with ⟨hm, h⟩ | ⟨hm, v, t, hv, h⟩ | ⟨hm, e, t, he, h⟩ <;> rw [h]
  · exact .refused hm
  · exact .ok hm hv
  · exact .err hm he

/-- The identifiers `search_proc` returns are those in `RES` (`42_rom_search.md` R151). -/
theorem searchProc_result {s u : State} {l : List Identifier} (h : searchProc s = .ok (some l) u) : l = u.res := by
  simp only [searchProc, bind_ok, getConf_run, modify_run, get_run, pure_run] at h
  obtain ⟨_, _, -, _, _, -, finished, t, -, v, w, hw, hl⟩ := h
  cases hw
  split at hl <;> cases hl
  rfl

/-- How `SEARCH` ends when it does not hang: refused, with the set in `RES`, or with an error of the search
(`42_rom_search.md` R150, R158, R159). -/
theorem execSearch_cases {s t : State} (h : exec .search s = .next t) :
    (s.mode ≠ .ready ∧ t = refuse .notReady s) ∨
      (s.mode = .ready ∧ ∃ u, searchProc s = .ok (some u.res) u ∧ t = deliver (.ok (.ids u.res)) u) ∨
      (s.mode = .ready ∧ ∃ e u, searchProc s = .error e u ∧ t = takeError .primitive e u) := by
  change execSearch s = .next t at h
  unfold execSearch at h
  rcases hostPrim_cases [.ready] searchProc s with ⟨hm, hp⟩ | ⟨hm, r, u, hr, hp⟩ | ⟨hm, e, u, he, hp⟩ <;> rw [hp] at h
  · exact .inl ⟨by simpa using hm, (Host.Outcome.next.inj h).symm⟩
  · cases r with
    | none => cases h
    | some l =>
      obtain rfl := searchProc_result hr
      exact .inr (.inl ⟨by simpa using hm, u, hr, (Host.Outcome.next.inj h).symm⟩)
  · exact .inr (.inr ⟨by simpa using hm, e, u, he, (Host.Outcome.next.inj h).symm⟩)

/-! ### The ranges the procedures keep -/

/-- The part of the invariant that speaks of the registers of the ROMSearchEngine alone (`10_state.md` R26, R28,
R39). -/
structure EngineInv (s : State) : Prop where
  ldRange : -1 ≤ s.ld ∧ s.ld ≤ 63
  resValid : ∀ m ∈ s.res, idValid s.conf m = true
  resNodup : s.res.Nodup

/-- What procedures keep of the invariant, each clause by itself. -/
structure RangesKept (s t : State) : Prop where
  engine : EngineInv s → EngineInv t
  pos : s.pos ≤ 63 → t.pos ≤ 63
  pollcnt : s.pollcnt ≤ s.conf.pollMax → t.pollcnt ≤ t.conf.pollMax

theorem RangesKept.refl (s : State) : RangesKept s s := ⟨id, id, id⟩

theorem RangesKept.trans (s t u : State) (h : RangesKept s t) (k : RangesKept t u) : RangesKept s u :=
  ⟨k.engine ∘ h.engine, k.pos ∘ h.pos, k.pollcnt ∘ h.pollcnt⟩

theorem EngineInv.of_eq {s t : State} (h : EngineInv s) (hconf : t.conf = s.conf) (hld : t.ld = s.ld)
    (hres : t.res = s.res) : EngineInv t :=
  ⟨by rw [hld]; exact h.ldRange, by rw [hres, hconf]; exact h.resValid, by rw [hres]; exact h.resNodup⟩

theorem RangesKept.of_eq {s t : State} (hconf : t.conf = s.conf) (hld : t.ld = s.ld) (hres : t.res = s.res)
    (hpos : t.pos = s.pos) (hpollcnt : t.pollcnt = s.pollcnt) : RangesKept s t where
  engine := fun h => h.of_eq hconf hld hres
  pos := fun h => by rwa [hpos]
  pollcnt := fun h => by rwa [hpollcnt, hconf]

/-- Nothing but the poll counter can leave its range in a procedure of the OneWireBus. -/
theorem BusFrame.rangesKept {s t : State} (h : BusFrame s t)
    (hp : s.pollcnt ≤ s.conf.pollMax → t.pollcnt ≤ s.conf.pollMax) : RangesKept s t where
  engine := fun he => he.of_eq h.conf h.ld h.res
  pos := fun hpos => h.pos ▸ hpos
  pollcnt := fun hc => h.conf ▸ hp hc

theorem PortFrame.rangesKept {s t : State} (h : PortFrame s t) : RangesKept s t :=
  .of_eq h.conf h.ld h.res h.pos h.pollcnt

/-- Each status read counts one. -/
theorem pollLoop_pollcnt_le (n : Nat) : ∀ s, (finalState (pollLoop n s)).pollcnt ≤ s.pollcnt + n := by
  induction n with
  | zero => exact fun s => le_rfl
  | succ n ih =>
    intro s
    rw [pollLoop, bind_run]
    cases hr : tRead s with
    | error e t => exact (tRead_keeps.of_error hr).pollcnt.le.trans (by omega)
    | ok v t =>
      have ht : t.pollcnt = s.pollcnt := (tRead_keeps.of_ok hr).pollcnt
      simp only [bind_run, modify_run, getConf_run]
      split
      · exact (ih _).trans (by simp [ht]; omega)
      · simp [ht]

theorem pollUntilIdle_rangesKept : Keeps RangesKept pollUntilIdle := by
  intro s
  refine (pollUntilIdle_keeps s).rangesKept fun hc => ?_
  simp only [pollUntilIdle, bind_run, getConf_run, modify_run]
  cases hr : cmd1 s.conf.cmdSRP s.conf.ptrStatus s with
  | error e t => exact ((cmd1_keeps _ _).of_error hr).pollcnt.le.trans hc
  | ok v t => simpa using pollLoop_pollcnt_le s.conf.pollMax (t.setPollcnt 0)

theorem BusProc.rangesKept {α : Type} {p : Proc α} (h : BusProc p) : Keeps RangesKept p :=
  h.keeps RangesKept.refl RangesKept.trans (fun _ _ => PortFrame.rangesKept) pollUntilIdle_rangesKept

/-! ### The ROMSearchEngine -/

/-- `newLD` is a position of the pass, or what it was before (`42_rom_search.md` R154). -/
theorem searchNewLd_cases (p : Nat) (idb cmp dir : Bool) (newLd : Int) :
    searchNewLd p idb cmp dir newLd = p ∨ searchNewLd p idb cmp dir newLd = newLd := by
  unfold searchNewLd
  split
  · exact .inl rfl
  · exact .inr rfl

/-- One position: the triplet runs at `POS = p`; two bits that are both set end the search, and otherwise the candidate
takes the bit and a discrepancy is recorded (`42_rom_search.md` R153 to R155). -/
theorem searchStep_run (p : Nat) (newLd : Int) (s : State) :
    searchStep p newLd s =
      match searchTriplet (searchDirection p s.ld s.cand) (s.setPos p) with
      | .error e t => .error e t
      | .ok (idb, cmp) t =>
        if idb && cmp then .error .noDevice t
        else .ok (searchNewLd p idb cmp (searchDirection p s.ld s.cand) newLd)
          (t.setCand (withIdBit t.cand p (searchBitTaken idb cmp (searchDirection p s.ld s.cand)))) := by
  simp only [searchStep, bind_run, modify_run, get_run, State.setPos_ld, State.setPos_cand]
  cases searchTriplet (searchDirection p s.ld s.cand) (s.setPos p) with
  | error e t => rfl
  | ok r t =>
    obtain ⟨idb, cmp⟩ := r
    cases idb <;> cases cmp <;> rfl

theorem searchStep_ok_range {p : Nat} (hp : p ≤ 63) {newLd n : Int} (hn : -1 ≤ newLd ∧ newLd ≤ 63) {s t : State}
    (h : searchStep p newLd s = .ok n t) : -1 ≤ n ∧ n ≤ 63 := by
  rw [searchStep_run] at h
  split at h
  · cases h
  next idb cmp u hu =>
    split at h
    · cases h
    · obtain ⟨rfl, -⟩ := EStateM.Result.ok.inj h
      rcases searchNewLd_cases p idb cmp (searchDirection p s.ld s.cand) newLd with h | h <;> rw [h]
      · omega
      · exact hn

theorem searchStep_rangesKept {p : Nat} (hp : p ≤ 63) (newLd : Int) : Keeps RangesKept (searchStep p newLd) := by
  intro s
  have atPos : RangesKept s (s.setPos p) :=
    ⟨fun he => he.of_eq rfl rfl rfl, fun _ => hp, id⟩
  have triplet := (searchTriplet_busProc (searchDirection p s.ld s.cand)).rangesKept
  rw [searchStep_run]
  split
  next e t ht => exact atPos.trans _ _ _ (triplet.of_error ht)
  next idb cmp t ht =>
    have before : RangesKept s t := atPos.trans _ _ _ (triplet.of_ok ht)
    split
    · exact before
    · exact before.trans _ _ _ (.of_eq rfl rfl rfl rfl rfl)

/-- `LD` stays in its range when the last discrepancy is in it, and `RES` takes only a valid identifier it does not hold
(`42_rom_search.md` R156, R157). -/
theorem searchBookkeeping_rangesKept {newLd : Int} (hn : -1 ≤ newLd ∧ newLd ≤ 63) (s : State) :
    RangesKept s (searchBookkeeping newLd s) := by
  unfold searchBookkeeping
  dsimp only
  split
  next hadd =>
    obtain ⟨hcand, hnew⟩ : idValid s.conf s.cand = true ∧ s.cand ∉ s.res := by simpa using hadd
    refine ⟨fun ⟨_, hvalid, hnodup⟩ => ⟨hn, fun m hm => ?_, ?_⟩, id, id⟩
    · rcases List.mem_append.1 hm with hm | hm
      · exact hvalid m hm
      · exact List.mem_singleton.1 hm ▸ hcand
    · exact hnodup.append (List.nodup_singleton _) (List.disjoint_singleton.2 hnew)
  · exact ⟨fun ⟨_, hvalid, hnodup⟩ => ⟨hn, hvalid, hnodup⟩, id, id⟩

theorem searchSteps_rangesKept (ps : List Nat) (hps : ∀ p ∈ ps, p ≤ 63) :
    ∀ newLd, Keeps RangesKept (searchSteps ps newLd) := by
  induction ps with
  | nil => exact fun _ => Keeps.pure RangesKept.refl _
  | cons p ps ih =>
    obtain ⟨hp, hps⟩ := List.forall_mem_cons.1 hps
    exact fun _ => (searchStep_rangesKept hp _).bind RangesKept.trans fun n => ih hps n

theorem searchSteps_ok_range (ps : List Nat) (hps : ∀ p ∈ ps, p ≤ 63) :
    ∀ {newLd n : Int} {s t : State}, -1 ≤ newLd ∧ newLd ≤ 63 → searchSteps ps newLd s = .ok n t → -1 ≤ n ∧ n ≤ 63 := by
  induction ps with
  | nil =>
    intro newLd n s t hn h
    obtain ⟨rfl, -⟩ := EStateM.Result.ok.inj h
    exact hn
  | cons p ps ih =>
    obtain ⟨hp, hps⟩ := List.forall_mem_cons.1 hps
    intro newLd n s t hn h
    obtain ⟨m, u, hm, h⟩ := bind_ok.1 h
    exact ih hps (searchStep_ok_range hp hn hm) h

/-- As `Keeps.bind`, where the second part is looked at only for the values the first can return. -/
theorem Keeps.bind_of_ok {α β : Type} {R : State → State → Prop} (trans : ∀ s t u, R s t → R t u → R s u)
    {x : Proc α} {f : α → Proc β} (hx : Keeps R x) (hf : ∀ s a t, x s = .ok a t → Keeps R (f a)) :
    Keeps R (x >>= f) := by
  intro s
  rw [bind_run]
  cases hxs : x s with
  | ok a t => exact trans _ _ _ (hx.of_ok hxs) (hf s a t hxs t)
  | error e t => exact hx.of_error hxs

theorem searchPass_rangesKept : Keeps RangesKept searchPass := by
  have positions : ∀ p ∈ List.range 64, p ≤ 63 := fun p hp => Nat.le_of_lt_succ (List.mem_range.1 hp)
  refine (Keeps.getConf RangesKept.refl).bind RangesKept.trans fun c => ?_
  refine busReset_busProc.rangesKept.bind RangesKept.trans fun p => ?_
  split
  · refine (writeByte_busProc _).rangesKept.bind RangesKept.trans fun _ => ?_
    refine (searchSteps_rangesKept _ positions _).bind_of_ok RangesKept.trans fun s n t hn => ?_
    refine (Keeps.modify fun u => searchBookkeeping_rangesKept ?_ u).bind RangesKept.trans fun _ => ?_
    · exact searchSteps_ok_range _ positions (by decide) hn
    · exact Keeps.pure RangesKept.refl _
  · exact Keeps.pure RangesKept.refl _

theorem searchLoop_rangesKept (n : Nat) : Keeps RangesKept (searchLoop n) := by
  induction n with
  | zero => exact Keeps.pure RangesKept.refl _
  | succ n ih =>
    refine searchPass_rangesKept.bind RangesKept.trans fun e => ?_
    cases e with
    | again => exact ih
    | noPresence => exact Keeps.pure RangesKept.refl _
    | last => exact Keeps.pure RangesKept.refl _

/-- A search starts with `LD = -1` and `RES` empty, whatever they were (`42_rom_search.md` R151). -/
theorem searchFresh_engineInv (s : State) : EngineInv (searchFresh s) :=
  ⟨by simp [searchFresh], by simp [searchFresh], by simp [searchFresh]⟩

theorem searchProc_run (s : State) :
    finalState (searchProc s) = finalState (searchLoop s.conf.searchFuel (searchFresh s)) := by
  simp only [searchProc, bind_run, getConf_run, modify_run, get_run, pure_run]
  cases searchLoop s.conf.searchFuel (searchFresh s) <;> rfl

theorem searchProc_engineInv (s : State) : EngineInv (finalState (searchProc s)) := by
  rw [searchProc_run]
  exact (searchLoop_rangesKept _ _).engine (searchFresh_engineInv s)

theorem searchProc_rangesKept : Keeps RangesKept searchProc := by
  intro s
  refine ⟨fun _ => searchProc_engineInv s, ?_, ?_⟩ <;> rw [searchProc_run]
  · exact (searchLoop_rangesKept _ (searchFresh s)).pos
  · exact (searchLoop_rangesKept _ (searchFresh s)).pollcnt

/-! ### `INIT` -/

/-- A `raise` is the last thing a procedure does. -/
theorem throw_bind {α β : Type} (e : Err) (f : α → Proc β) : ((throw e : Proc α) >>= f) = throw e := rfl

/-- The end of `INIT`, once the configuration is confirmed as `f` (`40_bridge_controller.md` R107, R108). -/
def initSelect (c : ConfigRecord) (ch : BitVec 3) (f : Byte) : Proc Unit := do
  modify fun t => t.setCfg f
  if c.variant = .multi8 then
    let _ ← pollUntilIdle
    selchSequence ch

/-- What follows the status test in `INIT` (`40_bridge_controller.md` R107, R108). -/
def initConfigure (c : ConfigRecord) (ch : BitVec 3) : Proc Unit := do
  cmd1 c.cmdWCFG c.cfgInitW
  let f ← tRead
  if f ≠ c.cfgInit then throw .initialization else initSelect c ch f

/-- `INIT` in its three parts, with each `raise` at the end of its branch. -/
theorem initBody_eq (ch : BitVec 3) : initBody ch = (do
    let c ← getConf
    cmd0 c.cmdDRST
    let s ← tRead
    if !initStatusOk c s then throw .initialization else initConfigure c ch) := by
  simp only [initBody, throw_bind]
  rfl

theorem initSelect_rangesKept (c : ConfigRecord) (ch : BitVec 3) (f : Byte) : Keeps RangesKept (initSelect c ch f) := by
  refine (Keeps.modify fun s => .of_eq rfl rfl rfl rfl rfl).bind RangesKept.trans fun _ => ?_
  split
  · exact (BusProc.poll.bind fun _ => selchSequence_busProc ch).rangesKept
  · exact Keeps.pure RangesKept.refl _

theorem initConfigure_rangesKept (c : ConfigRecord) (ch : BitVec 3) : Keeps RangesKept (initConfigure c ch) := by
  refine (cmd1_busProc _ _).rangesKept.bind RangesKept.trans fun _ =>
    BusProc.tRead.rangesKept.bind RangesKept.trans fun f => ?_
  split
  · exact Keeps.throw RangesKept.refl _
  · exact initSelect_rangesKept c ch f

theorem initBody_rangesKept (ch : BitVec 3) : Keeps RangesKept (initBody ch) := by
  rw [initBody_eq]
  refine (Keeps.getConf RangesKept.refl).bind RangesKept.trans fun c =>
    (BusProc.tWrite _).rangesKept.bind RangesKept.trans fun _ =>
    BusProc.tRead.rangesKept.bind RangesKept.trans fun s => ?_
  split
  · exact Keeps.throw RangesKept.refl _
  · exact initConfigure_rangesKept c ch

theorem initSelect_ok_cfg {c : ConfigRecord} {ch : BitVec 3} {f : Byte} {s t : State} {a : Unit}
    (h : initSelect c ch f s = .ok a t) : t.cfg = f := by
  obtain ⟨_, u, hu, h⟩ := bind_ok.1 h
  obtain ⟨-, rfl⟩ := EStateM.Result.ok.inj hu
  split at h
  · exact ((BusProc.poll.bind fun _ => selchSequence_busProc ch).busFrame.of_ok h).cfg
  · cases h
    rfl

/-- An `INIT` that goes through has read back `CFG_INIT` (`40_bridge_controller.md` R107). -/
theorem initBody_ok_cfg {ch : BitVec 3} {s t : State} {a : Unit} (h : initBody ch s = .ok a t) :
    t.cfg = s.conf.cfgInit := by
  rw [initBody_eq] at h
  obtain ⟨c, _, hc, h⟩ := bind_ok.1 h
  cases hc
  obtain ⟨_, _, -, h⟩ := bind_ok.1 h
  obtain ⟨_, _, -, h⟩ := bind_ok.1 h
  split at h
  · cases h
  obtain ⟨_, _, -, h⟩ := bind_ok.1 h
  obtain ⟨f, _, -, h⟩ := bind_ok.1 h
  split at h
  · cases h
  next hf => exact (initSelect_ok_cfg h).trans (not_not.1 hf)

end Sys2Proof.Machine
end

section
/-! PROOFS. The invariant of the block (`10_state.md` R39): it holds after reset and every step keeps it. -/

namespace Sys2Proof.Safety

open Sys2Proof.Machine

/-! ### Waiting, and a change of the environment -/

/-- Settles O7: each clause is the branch of `step` for that inbox. -/
theorem stepWithoutPacketLeavesBlock : Obligations.StepWithoutPacketLeavesBlock := by
  refine ⟨fun s h => ?_, fun s e rest h => ?_⟩
  · rw [step, h]
  · rw [step, h]
    rfl

/-! ### The invariant -/

/-- The operand check of a channel is the range of `CH` (`30_encoding.md` R82). -/
theorem channelBits_lt_nch {c : ConfigRecord} {ch : Byte} (h : channelLegal c ch = true) :
    (channelBits ch).toNat < nch c := by
  have hlt : ch.toNat < nch c := by simpa [channelLegal] using h
  rw [channelBits, BitVec.toNat_ofNat]
  exact (Nat.mod_le _ _).trans_lt hlt

theorem addrBits_lt (c : ConfigRecord) (addr : Byte) : (addrBits c addr).toNat < 2 ^ c.addrW := by
  rw [addrBits, BitVec.toNat_ofNat]
  exact (Nat.mod_le _ _).trans_lt (Nat.mod_lt _ (Nat.two_pow_pos _))

theorem Inv.engine {s : State} (h : Inv s) : EngineInv s := ⟨h.ldRange, h.resValid, h.resNodup⟩

/-- The invariant after a procedure that kept the ranges, the configuration record and `ADDR`: what is left to see is
`CH` and `CFG` where `MODE` is not `UNINIT`. -/
theorem Inv.of_ranges {s t : State} (hs : Inv s) (hr : RangesKept s t) (hconf : t.conf = s.conf)
    (haddr : t.addr = s.addr) (hsel : t.mode ≠ .uninit → t.ch.toNat < nch t.conf ∧ t.cfg = t.conf.cfgInit) : Inv t := by
  obtain ⟨hld, hvalid, hnodup⟩ := hr.engine hs.engine
  exact ⟨hld, hr.pos hs.posRange, hr.pollcnt hs.pollcntRange, by rw [haddr, hconf]; exact hs.addrRange, hvalid, hnodup,
    hsel⟩

theorem Inv.after_deliver {s : State} (hs : Inv s) (r : HostOutcome Value) : Inv (deliver r s) :=
  hs.of_ranges (.of_eq rfl rfl rfl rfl rfl) rfl rfl hs.selected

/-- A body that ran in `READY` or `DIRTY` and left `CH` and `CFG` alone: whatever `MODE` and outcome the operation then
ends in, the invariant holds. -/
theorem Inv.after_body {s u : State} (hs : Inv s) (hm : s.mode ≠ .uninit) (hr : RangesKept s u) (hf : SearchFrame s u)
    (m : Mode) (r : HostOutcome Value) : Inv (deliver r (u.setMode m)) := by
  have selected : u.ch.toNat < nch u.conf ∧ u.cfg = u.conf.cfgInit := by
    rw [hf.ch, hf.cfg, hf.conf]
    exact hs.selected hm
  exact hs.of_ranges (hr.trans _ _ _ (.of_eq rfl rfl rfl rfl rfl)) hf.conf hf.addr fun _ => selected

/-- An error that leads to `UNINIT` may lose `CH` and `CFG`. -/
theorem Inv.takeError_uninit {s u : State} (hs : Inv s) (hr : RangesKept s u) (hconf : u.conf = s.conf)
    (haddr : u.addr = s.addr) {site : ErrorSite} {e : Err} (hm : modeAfterError site e u.mode = .uninit) :
    Inv (takeError site e u) := by
  refine hs.of_ranges (hr.trans _ _ _ (.of_eq ?_ ?_ ?_ ?_ ?_)) ?_ ?_ (absurd (by simpa using hm)) <;>
    simp [hconf, haddr]

/-- Every operation under `host_prim` keeps the invariant. -/
theorem primEnd_inv {α : Type} {allowed : List Mode} {body : Proc α} {finish : α → State → State} {s t : State}
    (hs : Inv s) (ha : Mode.uninit ∉ allowed) (hb : BusProc body)
    (hfin : ∀ v u, ∃ m r, finish v u = deliver r (u.setMode m)) (h : PrimEnd allowed body finish s t) : Inv t := by
  cases h with
  | refused hm => exact hs.after_deliver _
  | ok hm hv =>
    obtain ⟨m, r, hfin⟩ := hfin _ _
    rw [hfin]
    exact hs.after_body (fun he => ha (he ▸ hm)) (hb.rangesKept.of_ok hv) (hb.busFrame.of_ok hv).toSearchFrame m r
  | err hm he =>
    exact hs.after_body (fun he => ha (he ▸ hm)) (hb.rangesKept.of_error he) (hb.busFrame.of_error he).toSearchFrame _ _

theorem runFragment_inv {p : Proc Unit} (hp : BusProc p) {s : State} (hs : Inv s) : Inv (runFragment p s) := by
  rcases runFragment_cases p s with ⟨-, h⟩ | ⟨hm, t, ht, h⟩ | ⟨hm, e, t, ht, h⟩ <;> rw [h]
  · exact hs.after_deliver _
  · exact hs.after_body hm (hp.rangesKept.of_ok ht) (hp.busFrame.of_ok ht).toSearchFrame t.mode _
  · exact hs.after_body hm (hp.rangesKept.of_error ht) (hp.busFrame.of_error ht).toSearchFrame t.mode _

theorem execSearch_inv {s t : State} (hs : Inv s) (h : exec .search s = .next t) : Inv t := by
  rcases execSearch_cases h with ⟨-, rfl⟩ | ⟨hm, u, hu, rfl⟩ | ⟨hm, e, u, hu, rfl⟩
  · exact hs.after_deliver _
  · exact hs.after_body (by simp [hm]) (searchProc_rangesKept.of_ok hu) (searchProc_keeps.of_ok hu) u.mode _
  · exact hs.after_body (by simp [hm]) (searchProc_rangesKept.of_error hu) (searchProc_keeps.of_error hu) _ _

/-- `MODE` is `UNINIT` and `ADDR` is written before the body runs (`40_bridge_controller.md` R104). -/
theorem Inv.initStart {s : State} (hs : Inv s) (addr : Byte) :
    Inv ((s.setMode .uninit).setAddr (addrBits s.conf addr)) :=
  ⟨hs.ldRange, hs.posRange, hs.pollcntRange, addrBits_lt _ _, hs.resValid, hs.resNodup, absurd rfl⟩

theorem execInit_inv {addr ch : Byte} {s t : State} (hs : Inv s) (h : exec (.init addr ch) s = .next t) : Inv t := by
  obtain rfl := Host.Outcome.next.inj h
  split
  next hlegal =>
    unfold initAccepted
    split
    next u hu =>
      have hr := (initBody_rangesKept _).of_ok hu
      have hf := (initBody_keeps _).of_ok hu
      refine (hs.initStart addr).of_ranges (hr.trans _ _ _ (.of_eq rfl rfl rfl rfl rfl)) hf.conf hf.addr
        fun _ => ⟨?_, (initBody_ok_cfg hu).trans (congrArg _ hf.conf.symm)⟩
      have hch : channelLegal s.conf ch = true := (Bool.and_eq_true_iff.1 hlegal).2
      exact (channelBits_lt_nch hch).trans_eq (congrArg nch hf.conf.symm)
    next e u hu =>
      have hf := (initBody_keeps _).of_error hu
      exact (hs.initStart addr).takeError_uninit ((initBody_rangesKept _).of_error hu) hf.conf hf.addr rfl
  · exact hs.after_deliver _

theorem selchMulti_inv {ch : Byte} {s : State} (hs : Inv s) (hm : s.mode = .ready)
    (hch : channelLegal s.conf ch = true) : Inv (selchMulti ch s) := by
  have hready : s.mode ≠ .uninit := by simp [hm]
  unfold selchMulti
  split
  next e t ht =>
    exact hs.after_body hready (BusProc.poll.rangesKept.of_error ht) (pollUntilIdle_keeps.of_error ht).toSearchFrame _ _
  next v t ht =>
    have poll : BusFrame s t := pollUntilIdle_keeps.of_ok ht
    have hr : RangesKept s t := BusProc.poll.rangesKept.of_ok ht
    have sequence := selchSequence_busProc (channelBits ch)
    split
    next e u hu =>
      have hf := poll.trans _ _ _ (sequence.busFrame.of_error hu)
      exact hs.takeError_uninit (hr.trans _ _ _ (sequence.rangesKept.of_error hu)) hf.conf hf.addr rfl
    next u hu =>
      have hf := poll.trans _ _ _ (sequence.busFrame.of_ok hu)
      have hu := hr.trans _ _ _ (sequence.rangesKept.of_ok hu)
      obtain ⟨-, hcfg⟩ := hs.selected hready
      exact hs.of_ranges (hu.trans _ _ _ (.of_eq rfl rfl rfl rfl rfl)) hf.conf hf.addr
        fun _ => ⟨(channelBits_lt_nch hch).trans_eq (congrArg nch hf.conf.symm),
          show u.cfg = u.conf.cfgInit by rwa [hf.cfg, hf.conf]⟩

theorem execSelch_inv {ch : Byte} {s t : State} (hs : Inv s) (h : exec (.selch ch) s = .next t) : Inv t := by
  obtain rfl := Host.Outcome.next.inj h
  split
  next hch =>
    split
    next hm =>
      unfold selchReady
      split
      · exact hs.after_deliver _
      · exact selchMulti_inv hs hm hch
    · exact hs.after_deliver _
  · exact hs.after_deliver _

/-- Every instruction keeps the invariant. -/
theorem exec_inv {i : Instr} {s t : State} (hs : Inv s) (h : exec i s = .next t) : Inv t := by
  have prim {β : Type} (value : β → Value) {body : Proc β} (hb : BusProc body) :
      Inv (endPrim value (hostPrim [.ready] body s)) :=
    primEnd_inv hs (by decide) hb (fun v u => ⟨u.mode, _, rfl⟩) (endPrim_primEnd [.ready] body value s)
  by_cases hi : formatOf (opOf i) = .H
  · cases i with
    | init addr ch => exact execInit_inv hs h
    | selch ch => exact execSelch_inv hs h
    | owreset => exact primEnd_inv hs (by decide) busReset_busProc (fun p u => ⟨.ready, _, rfl⟩) (execOwreset_primEnd h)
    | owwrite b => exact Host.Outcome.next.inj h ▸ prim _ (writeByte_busProc b)
    | owread => exact Host.Outcome.next.inj h ▸ prim _ readByte_busProc
    | matchrom id => exact Host.Outcome.next.inj h ▸ prim _ (matchRom_busProc id)
    | search => exact execSearch_inv hs h
    | crc8 data => exact Host.Outcome.next.inj h ▸ hs.after_deliver _
    | _ => cases hi
  · obtain ⟨p, hx, hp⟩ := exec_fragment_busProc hi s
    obtain rfl := Host.Outcome.next.inj (hx.symm.trans h)
    exact runFragment_inv hp hs

/-- Settles O20: the values of log 3 lie in the ranges, and in `UNINIT` nothing is said of `CH` and `CFG`. -/
theorem resetMeetsInvariant : Obligations.ResetMeetsInvariant :=
  ⟨⟨by decide, by decide, Nat.zero_le _, Nat.two_pow_pos _, nofun, .nil, absurd rfl⟩, rfl⟩

theorem blockReset_inv (s : State) : Inv (blockReset s) :=
  have ⟨hld, hpos, _, _, _, _, _⟩ := resetMeetsInvariant.1
  ⟨hld, hpos, Nat.zero_le _, Nat.two_pow_pos _, nofun, .nil, absurd rfl⟩

theorem Inv.after_setInbox {s : State} (hs : Inv s) (l : List Input) : Inv (s.setInbox l) :=
  ⟨hs.ldRange, hs.posRange, hs.pollcntRange, hs.addrRange, hs.resValid, hs.resNodup, hs.selected⟩

theorem Inv.after_setEnv {s : State} (hs : Inv s) (e : Env) : Inv (s.setEnv e) :=
  ⟨hs.ldRange, hs.posRange, hs.pollcntRange, hs.addrRange, hs.resValid, hs.resNodup, hs.selected⟩

theorem runPacket_inv {f : Format} {bytes : List Byte} {s t : State} (hs : Inv s)
    (h : runPacket f bytes s = .next t) : Inv t := by
  unfold runPacket at h
  split at h
  · exact exec_inv hs h
  · cases f with
    | H => exact Host.Outcome.next.inj h ▸ hs.after_deliver _
    | B => cases h
    | W => cases h

/-- Settles O19: by what stands first in the inbox; a packet is an instruction, and every instruction keeps the
invariant. -/
theorem stepKeepsInvariant : Obligations.StepKeepsInvariant := by
  intro s t hs h
  unfold step at h
  split at h
  · exact Host.Outcome.next.inj h ▸ hs
  · exact runPacket_inv (hs.after_setInbox _) h
  · exact Host.Outcome.next.inj h ▸ blockReset_inv _
  · exact Host.Outcome.next.inj h ▸ (hs.after_setInbox _).after_setEnv _

end Sys2Proof.Safety
end

section
/-! PROOFS. Runs on two environments that differ in status bits the block does not look at (`10_state.md` R33, 93 U7).
A procedure is read together with the trace it adds: which operations it adds, what the scanner of `Safety.lean` makes
of them, and that on answers which differ in ignored bits alone it adds the other trace and ends in the same way. -/

namespace Sys2Proof.Machine

open Sys2Proof.Safety

/-! ### Traces that differ in ignored bits -/

/-- The scanner after the operations of a trace. -/
def scan (c : ConfigRecord) (x : TraceScan) (ops : List TransportOp) : TraceScan := ops.foldl (TraceScan.after c) x

@[simp] theorem scan_nil (c : ConfigRecord) (x : TraceScan) : scan c x [] = x := rfl

@[simp] theorem scan_cons (c : ConfigRecord) (x : TraceScan) (op : TransportOp) (ops : List TransportOp) :
    scan c x (op :: ops) = scan c (x.after c op) ops := rfl

@[simp] theorem scan_append (c : ConfigRecord) (x : TraceScan) (p q : List TransportOp) :
    scan c x (p ++ q) = scan c (scan c x p) q := List.foldl_append

/-- `ops'` differs from `ops` only in bits the block does not look at, and `as` are answers that give `ops'`. -/
inductive Replay (c : ConfigRecord) : TraceScan → List TransportOp → List TransportOp → List Answer → Prop
  | nil {x : TraceScan} : Replay c x [] [] []
  | rd {x : TraceScan} {a v w : Byte} {ops ops' : List TransportOp} {as : List Answer} (hs : sameRead c x v w = true)
    (h : Replay c (x.after c (.rd a v)) ops ops' as) : Replay c x (.rd a v :: ops) (.rd a w :: ops') (.ack w :: as)
  | wr {x : TraceScan} {a b z : Byte} {ops ops' : List TransportOp} {as : List Answer}
    (h : Replay c (x.after c (.wr a b)) ops ops' as) : Replay c x (.wr a b :: ops) (.wr a b :: ops') (.ack z :: as)
  | failed {x : TraceScan} {ops ops' : List TransportOp} {as : List Answer}
    (h : Replay c (x.after c .failed) ops ops' as) : Replay c x (.failed :: ops) (.failed :: ops') (.nack :: as)

theorem Replay.of_sameButIgnored {c : ConfigRecord} {ops ops' : List TransportOp} {as : List Answer} {x : TraceScan}
    (hs : sameButIgnored c x ops ops' = true) (ha : AnswersGive ops' as) : Replay c x ops ops' as := by
  induction ops generalizing ops' as x with
  | nil =>
    cases ops' with
    | nil => cases ha; exact .nil
    | cons op ops' => simp [sameButIgnored] at hs
  | cons op ops ih =>
    cases ha with
    | nil => cases op <;> simp [sameButIgnored] at hs
    | @cons op' a ops' as hgives ha =>
      cases op <;> cases op' <;> simp only [sameButIgnored, Bool.and_eq_true, beq_iff_eq, Bool.false_eq_true] at hs
      case wr.wr =>
        obtain ⟨⟨rfl, rfl⟩, hs⟩ := hs
        cases a with
        | ack z => exact .wr (ih hs ha)
        | nack => exact absurd rfl hgives
      case rd.rd =>
        obtain ⟨⟨rfl, hread⟩, hs⟩ := hs
        cases hgives
        exact .rd hread (ih hs ha)
      case failed.failed =>
        cases hgives
        exact .failed (ih hs ha)

/-- A replay of one trace after the other is the one's replay after the other's. -/
theorem Replay.append_inv {c : ConfigRecord} (p : List TransportOp) {q : List TransportOp} :
    ∀ {x : TraceScan} {ops' : List TransportOp} {as : List Answer}, Replay c x (p ++ q) ops' as →
      ∃ p' q' as₁ as₂, ops' = p' ++ q' ∧ as = as₁ ++ as₂ ∧ Replay c x p p' as₁ ∧ Replay c (scan c x p) q q' as₂ := by
  induction p with
  | nil => exact fun {_ ops' as} h => ⟨[], ops', [], as, rfl, rfl, .nil, h⟩
  | cons op p ih =>
    intro x ops' as h
    cases h with
    | rd hs h =>
      obtain ⟨p', q', as₁, as₂, rfl, rfl, hp, hq⟩ := ih h
      exact ⟨_, q', _, as₂, rfl, rfl, .rd hs hp, hq⟩
    | wr h =>
      obtain ⟨p', q', as₁, as₂, rfl, rfl, hp, hq⟩ := ih h
      exact ⟨_, q', _, as₂, rfl, rfl, .wr hp, hq⟩
    | failed h =>
      obtain ⟨p', q', as₁, as₂, rfl, rfl, hp, hq⟩ := ih h
      exact ⟨_, q', _, as₂, rfl, rfl, .failed hp, hq⟩

theorem flagsAgree_self (c : ConfigRecord) (u : FlagUse) (v : Byte) : flagsAgree c u v v = true := by
  cases u <;> simp [flagsAgree]

theorem sameRead_self (c : ConfigRecord) (x : TraceScan) (v : Byte) : sameRead c x v v = true := by
  unfold sameRead
  split
  · simp
  · split <;> simp [flagsAgree_self]

/-! ### Runs on two environments -/

/-- Equal in all but `ST`, the environment, the trace and the counter of free values. -/
def Twin (s s' : State) : Prop :=
  ∃ st env trace freeIx, s' = { s with st := st, env := env, trace := trace, freeIx := freeIx }

theorem Twin.refl (s : State) : Twin s s := ⟨_, _, _, _, rfl⟩

theorem Twin.conf {s s' : State} (h : Twin s s') : s'.conf = s.conf := by
  obtain ⟨st, env, trace, freeIx, rfl⟩ := h
  rfl

theorem Twin.mode {s s' : State} (h : Twin s s') : s'.mode = s.mode := by
  obtain ⟨st, env, trace, freeIx, rfl⟩ := h
  rfl

theorem Twin.addr {s s' : State} (h : Twin s s') : s'.addr = s.addr := by
  obtain ⟨st, env, trace, freeIx, rfl⟩ := h
  rfl

/-- `u` is where the second run, from `s'`, stands when the first stands in `t`: it added `ops'`, and the answers `rest`
are left. -/
structure Echo (s' : State) (ops' : List TransportOp) (rest : List Answer) (t u : State) : Prop where
  twin : Twin t u
  trace : u.trace = s'.trace ++ ops'
  env : u.env = .script rest

theorem Echo.trans {s' u u' t t' : State} {o₁ o₂ : List TransportOp} {as rest : List Answer}
    (h : Echo s' o₁ as t u) (k : Echo u o₂ rest t' u') : Echo s' (o₁ ++ o₂) rest t' u' :=
  ⟨k.twin, by rw [k.trace, h.trace, List.append_assoc], k.env⟩

/-- Where a run started matters to its trace alone. -/
theorem Echo.of_trace {s₁ s' t u : State} {o₁ ops' : List TransportOp} {rest : List Answer} (h : Echo s₁ o₁ rest t u)
    (htrace : s₁.trace ++ o₁ = s'.trace ++ ops') : Echo s' ops' rest t u :=
  ⟨h.twin, h.trace.trans htrace, h.env⟩

/-- The second run returns where the first returns, and raises the error the first raises. -/
def EndAlike {α : Type} (V : α → α → Prop) (R : State → State → Prop) :
    EStateM.Result Err State α → EStateM.Result Err State α → Prop
  | .ok v t, r => ∃ w u, r = .ok w u ∧ V v w ∧ R t u
  | .error e t, r => ∃ u, r = .error e u ∧ R t u

theorem EndAlike.mono {α : Type} {V : α → α → Prop} {R S : State → State → Prop} {r r' : EStateM.Result Err State α}
    (h : EndAlike V R r r') (hRS : ∀ t u, R t u → S t u) : EndAlike V S r r' := by
  cases r with
  | ok v t =>
    obtain ⟨w, u, hr, hv, hu⟩ := h
    exact ⟨w, u, hr, hv, hRS _ _ hu⟩
  | error e t =>
    obtain ⟨u, hr, hu⟩ := h
    exact ⟨u, hr, hRS _ _ hu⟩

/-- No operation of the trace follows a triplet that no device answered (`42_rom_search.md` R155). -/
def StopsAtNoDevice (c : ConfigRecord) : TraceScan → List TransportOp → Prop
  | _, [] => True
  | x, op :: ops => x.last ≠ .noDevice ∧ StopsAtNoDevice c (x.after c op) ops

theorem StopsAtNoDevice.append {c : ConfigRecord} {q : List TransportOp} : ∀ {p : List TransportOp} {x : TraceScan},
    StopsAtNoDevice c x p → StopsAtNoDevice c (scan c x p) q → StopsAtNoDevice c x (p ++ q)
  | [], _, _, hq => hq
  | _ :: _, _, ⟨hl, hp⟩, hq => ⟨hl, hp.append hq⟩

theorem StopsAtNoDevice.last_ne {c : ConfigRecord} {op : TransportOp} {q : List TransportOp} :
    ∀ {p : List TransportOp} {x : TraceScan}, StopsAtNoDevice c x (p ++ op :: q) → (scan c x p).last ≠ .noDevice
  | [], _, ⟨hl, _⟩ => hl
  | _ :: _, _, ⟨_, hp⟩ => hp.last_ne

/-- The run ended as its trace, now scanned to `y`, says: with a value in `V`, or with an error that is `NoDevice`
exactly when the last operation is a triplet that no device answered. -/
def Ended {α : Type} (V : α → Prop) (y : TraceScan) : EStateM.Result Err State α → Prop
  | .ok v _ => V v
  | .error e _ => y.last = .noDevice ↔ e = .noDevice

/-- A run from `s` to `t` added `ops`. -/
structure Adds (c : ConfigRecord) (x : TraceScan) (ops : List TransportOp) (s t : State) : Prop where
  conf : t.conf = c
  trace : t.trace = s.trace ++ ops
  stops : StopsAtNoDevice c x ops

/-- With the trace so far scanned to `x`: `p` adds operations and ends as they say; and on answers that differ from them
in ignored bits alone `p'` ends in the same way. `V` relates the scanner after the run and the values of the two. -/
def Mirrors {α : Type} (c : ConfigRecord) (x : TraceScan) (p p' : Proc α) (V : TraceScan → α → α → Prop) : Prop :=
  ∀ s, s.conf = c → ∃ ops, Adds c x ops s (finalState (p s)) ∧
    Ended (fun v => V (scan c x ops) v v) (scan c x ops) (p s) ∧
    ∀ s' ops' as rest, Twin s s' → Replay c x ops ops' as → s'.env = .script (as ++ rest) →
      EndAlike (V (scan c x ops)) (Echo s' ops' rest) (p s) (p' s')

section
variable {α β : Type} {c : ConfigRecord} {x : TraceScan} {V : TraceScan → α → α → Prop} {p p' : Proc α}

theorem Mirrors.mono {W : TraceScan → α → α → Prop} (h : Mirrors c x p p' V) (hVW : ∀ y v w, V y v w → W y v w) :
    Mirrors c x p p' W := by
  intro s hs
  obtain ⟨ops, hadds, hended, hreplay⟩ := h s hs
  cases hp : p s with
  | error e t =>
    rw [hp] at hadds hended hreplay
    exact ⟨ops, hadds, hended, hreplay⟩
  | ok v t =>
    rw [hp] at hadds hended hreplay
    refine ⟨ops, hadds, hVW _ _ _ hended, fun s' ops' as rest htwin hops henv => ?_⟩
    obtain ⟨w, u, hp', hv, hu⟩ := hreplay s' ops' as rest htwin hops henv
    exact ⟨w, u, hp', hVW _ _ _ hv, hu⟩

/-- One procedure after the other. -/
theorem Mirrors.bind {W : TraceScan → β → β → Prop} {f f' : α → Proc β} (hx : Mirrors c x p p' V)
    (hf : ∀ y v w, V y v w → Mirrors c y (f v) (f' w) W) : Mirrors c x (p >>= f) (p' >>= f') W := by
  intro s hs
  obtain ⟨ops, hadds, hended, hreplay⟩ := hx s hs
  cases hp : p s with
  | error e t =>
    rw [hp] at hadds hended hreplay
    rw [bind_of_error hp]
    refine ⟨ops, hadds, hended, fun s' ops' as rest htwin hops henv => ?_⟩
    obtain ⟨u, hp', hu⟩ := hreplay s' ops' as rest htwin hops henv
    exact ⟨u, bind_of_error hp' f', hu⟩
  | ok v t =>
    rw [hp] at hadds hended hreplay
    obtain ⟨hconf, htrace, hstops⟩ := hadds
    rw [bind_of_ok hp]
    obtain ⟨ops₂, ⟨hconf₂, htrace₂, hstops₂⟩, hended₂, -⟩ := hf _ v v hended t hconf
    refine ⟨ops ++ ops₂, ⟨hconf₂, by rw [htrace₂, ← List.append_assoc, ← htrace]; rfl, hstops.append hstops₂⟩,
      by rwa [scan_append], fun s' ops' as rest htwin hops henv => ?_⟩
    obtain ⟨o₁, o₂, as₁, as₂, rfl, rfl, hops₁, hops₂⟩ := hops.append_inv
    rw [List.append_assoc] at henv
    obtain ⟨w, u, hp', hv, hu⟩ := hreplay s' o₁ as₁ (as₂ ++ rest) htwin hops₁ henv
    obtain ⟨ops₃, ⟨-, htrace₃, -⟩, -, hreplay₃⟩ := hf _ v w hv t hconf
    obtain rfl : ops₂ = ops₃ := List.append_cancel_left (htrace₂.symm.trans htrace₃)
    rw [bind_of_ok hp']
    rw [scan_append]
    exact (hreplay₃ u o₂ as₂ rest hu.twin hops₂ hu.env).mono fun _ _ => hu.trans

/-- The operations of a run are those its trace shows. -/
theorem Mirrors.of_trace (h : Mirrors c x p p' V) {s : State} (hs : s.conf = c) {ops : List TransportOp}
    (ht : (finalState (p s)).trace = s.trace ++ ops) :
    Adds c x ops s (finalState (p s)) ∧ Ended (fun v => V (scan c x ops) v v) (scan c x ops) (p s) ∧
      ∀ s' ops' as rest, Twin s s' → Replay c x ops ops' as → s'.env = .script (as ++ rest) →
        EndAlike (V (scan c x ops)) (Echo s' ops' rest) (p s) (p' s') := by
  obtain ⟨ops₁, hadds, h⟩ := h s hs
  obtain rfl : ops₁ = ops := List.append_cancel_left (hadds.trace.symm.trans ht)
  exact ⟨hadds, h⟩

/-- A procedure that issues no transport operation and returns. -/
theorem Mirrors.silent (h : ∀ s, s.conf = c → ∃ v t, p s = .ok v t ∧ t.conf = c ∧ t.trace = s.trace ∧ V x v v ∧
    ∀ s', Twin s s' → ∃ w u, p' s' = .ok w u ∧ V x v w ∧ Twin t u ∧ u.trace = s'.trace ∧ u.env = s'.env) :
    Mirrors c x p p' V := by
  intro s hs
  obtain ⟨v, t, hp, hconf, htrace, hv, h⟩ := h s hs
  rw [hp]
  refine ⟨[], ⟨hconf, by simpa using htrace, trivial⟩, hv, fun s' ops' as rest htwin hops henv => ?_⟩
  cases hops
  obtain ⟨w, u, hp', hw, hu, htrace', henv'⟩ := h s' htwin
  exact ⟨w, u, hp', hw, hu, by simpa using htrace', by simpa [henv'] using henv⟩

theorem Mirrors.pure {v w : α} (hv : V x v v) (hw : V x v w) : Mirrors c x (pure v) (pure w) V :=
  .silent fun s hs => ⟨v, s, rfl, hs, rfl, hv, fun s' h => ⟨w, s', rfl, hw, h, rfl, rfl⟩⟩

/-- The configuration record is the same in both runs, and no run changes it. -/
theorem Mirrors.getConf_bind {W : TraceScan → β → β → Prop} {f f' : ConfigRecord → Proc β}
    (h : Mirrors c x (f c) (f' c) W) : Mirrors c x (getConf >>= f) (getConf >>= f') W := by
  have conf : Mirrors c x getConf getConf (fun y v w => y = x ∧ v = c ∧ w = c) :=
    .silent fun s hs => ⟨c, s, by simp [hs], hs, rfl, ⟨rfl, rfl, rfl⟩, fun s' ht =>
      ⟨c, s', by simp [ht.conf, hs], ⟨rfl, rfl, rfl⟩, ht, rfl, rfl⟩⟩
  refine conf.bind ?_
  rintro y v w ⟨rfl, rfl, rfl⟩
  exact h

theorem Mirrors.get : Mirrors c x get get (fun y s s' => y = x ∧ Twin s s') :=
  .silent fun s hs => ⟨s, s, rfl, hs, rfl, ⟨rfl, .refl s⟩, fun s' h => ⟨s', s', rfl, ⟨rfl, h⟩, h, rfl, rfl⟩⟩

/-- A write to the block's registers that does not look at what may differ. -/
theorem Mirrors.modify {f f' : State → State} (h : ∀ s s', Twin s s' → Twin (f s) (f' s') ∧ (f s).conf = s.conf ∧
      (f s).trace = s.trace ∧ (f' s').trace = s'.trace ∧ (f' s').env = s'.env) :
    Mirrors c x (modify f) (modify f') (fun y _ _ => y = x) :=
  .silent fun s hs => have ⟨_, hconf, htrace, _⟩ := h s s (.refl s)
    ⟨⟨⟩, f s, rfl, hconf.trans hs, htrace, rfl, fun s' ht => have ⟨htwin, _, _, htrace', henv⟩ := h s s' ht
      ⟨⟨⟩, f' s', rfl, rfl, htwin, htrace', henv⟩⟩

theorem Mirrors.throw {e : Err} (he : x.last = .noDevice ↔ e = .noDevice) :
    Mirrors c x (throw e : Proc α) (throw e) V := by
  refine fun s hs => ⟨[], ⟨hs, by simp, trivial⟩, he, fun s' ops' as rest htwin hops henv => ?_⟩
  cases hops
  exact ⟨s', rfl, htwin, by simp, henv⟩

end

/-! ### The transport operations -/

section
variable {c : ConfigRecord} {x : TraceScan}

/-- The first run's transport operation, from `s`. -/
theorem record_adds {s t : State} (hs : s.conf = c) (hx : x.last ≠ .noDevice) (op : TransportOp)
    (h : (∃ n, t = s.setFreeIx n) ∨ (∃ e, t = s.setEnv e)) : Adds c x [op] s (record op t) := by
  refine ⟨(record_frame op h).conf.trans hs, ?_, hx, trivial⟩
  rcases h with ⟨n, rfl⟩ | ⟨e, rfl⟩ <;> rfl

/-- The second run's transport operation, from `s'`. -/
theorem record_echo {s s' t : State} (htwin : Twin s s') (op op' : TransportOp) (rest : List Answer)
    (h : (∃ n, t = s.setFreeIx n) ∨ (∃ e, t = s.setEnv e)) :
    Echo s' [op'] rest (record op t) (record op' (s'.setEnv (.script rest))) := by
  obtain ⟨st, env, trace, freeIx, rfl⟩ := htwin
  refine ⟨?_, rfl, rfl⟩
  rcases h with ⟨n, rfl⟩ | ⟨e, rfl⟩ <;> exact ⟨_, _, _, _, rfl⟩

/-- A read that a script does not acknowledge. -/
theorem tRead_script_nack {s : State} {rest : List Answer} (h : s.env = .script (.nack :: rest)) :
    tRead s = .error .transport (record .failed (s.setEnv (.script rest))) := by
  simp [tRead, envRead, h]

/-- The two runs see bytes that agree wherever the block looks. -/
theorem tRead_mirrors (hx : x.last ≠ .noDevice) :
    Mirrors c x tRead tRead (fun y v w => y = x.after c (.rd 0 v) ∧ sameRead c x v w = true) := by
  intro s hs
  rcases tRead_cases s with ⟨v, -, h⟩ | ⟨-, h⟩ <;> rw [h]
  · refine ⟨_, record_adds hs hx _ (envRead_cases s), ⟨rfl, sameRead_self c x v⟩,
      fun s' ops' as rest htwin hops henv => ?_⟩
    rcases hops with _ | ⟨hread, ⟨⟩⟩
    refine ⟨_, _, tRead_script henv, ⟨rfl, hread⟩, ?_⟩
    rw [htwin.addr]
    exact record_echo htwin _ _ rest (envRead_cases s)
  · refine ⟨_, record_adds hs hx _ (envRead_cases s), by simp [Ended, TraceScan.after],
      fun s' ops' as rest htwin hops henv => ?_⟩
    rcases hops with _ | _ | _ | ⟨⟨⟩⟩
    exact ⟨_, tRead_script_nack henv, record_echo htwin _ _ rest (envRead_cases s)⟩

theorem tWrite_mirrors (hx : x.last ≠ .noDevice) (b : Byte) :
    Mirrors c x (tWrite b) (tWrite b) (fun y _ _ => y = x.after c (.wr 0 b)) := by
  intro s hs
  rcases tWrite_cases b s with ⟨-, h⟩ | ⟨-, h⟩ <;> rw [h]
  · refine ⟨_, record_adds hs hx _ (envWrite_cases b s), rfl, fun s' ops' as rest htwin hops henv => ?_⟩
    rcases hops with _ | _ | ⟨⟨⟩⟩
    refine ⟨_, _, tWrite_script henv, rfl, ?_⟩
    rw [htwin.addr]
    exact record_echo htwin _ _ rest (envWrite_cases b s)
  · refine ⟨_, record_adds hs hx _ (envWrite_cases b s), by simp [Ended, TraceScan.after],
      fun s' ops' as rest htwin hops henv => ?_⟩
    rcases hops with _ | _ | _ | ⟨⟨⟩⟩
    exact ⟨_, tWrite_script_nack henv, record_echo htwin _ _ rest (envWrite_cases b s)⟩

/-! ### Bridge commands -/

/-- How the scanner reads a command code: does it take a parameter, is it the device reset, and what is the next poll
for. -/
structure CodeScan (c : ConfigRecord) (code : Byte) (parameter reset : Bool) (u : FlagUse) : Prop where
  parameter : takesParameter c code = parameter
  notSrp : code ≠ c.cmdSRP
  reset : decide (code = c.cmdDRST) = reset
  flags : ∀ v, flagsAfterCommand c code v = u

/-- The rows of `30_encoding.md` R88 that host operations emit, the read pointer's apart. -/
structure CommandRows (c : ConfigRecord) : Prop where
  drst : CodeScan c c.cmdDRST false true .busy
  wcfg : CodeScan c c.cmdWCFG true false .busy
  chsl : CodeScan c c.cmdCHSL true false .busy
  w1rs : CodeScan c c.cmd1WRS false false .presence
  w1wb : CodeScan c c.cmd1WWB true false .busy
  w1rb : CodeScan c c.cmd1WRB false false .busy
  w1t : CodeScan c c.cmd1WT true false .triplet

theorem commandRows {c : ConfigRecord} (hc : codesDistinct c = true) : CommandRows c := by
  have h : [c.cmdDRST, c.cmdSRP, c.cmdWCFG, c.cmdCHSL, c.cmd1WRS, c.cmd1WWB, c.cmd1WRB, c.cmd1WT, c.cmd1WSB].Nodup :=
    (of_decide_eq_true hc).2.1
  simp only [List.nodup_cons, List.mem_cons, List.not_mem_nil, not_or, or_false, not_false_eq_true] at h
  constructor <;> constructor <;> simp [takesParameter, flagsAfterCommand] <;> grind

/-- The scanner after a whole bridge command: `r` if it was the device reset, `u` what the next poll is for. -/
def commandScan (r : Bool) (u : FlagUse) : TraceScan := ⟨.command, false, r, .none, u⟩

theorem commandScan_last (r : Bool) (u : FlagUse) : (commandScan r u).last ≠ .noDevice := nofun

/-- The scanner in a poll, after its two writes and some reads. -/
def pollScan (u : FlagUse) (l : PollRead) : TraceScan := ⟨.command, true, false, l, u⟩

/-- Between two primitives: the next write is a command, and the next poll ends by the busy flag alone. -/
structure Settled (x : TraceScan) : Prop where
  gap : x.gap = .command
  last : x.last ≠ .noDevice
  flags : x.flags = .busy

theorem Settled.start : Settled .start := ⟨rfl, nofun, rfl⟩

theorem Settled.command (r : Bool) : Settled (commandScan r .busy) := ⟨rfl, nofun, rfl⟩

/-- A command byte without a parameter. -/
theorem cmd0_mirrors (hgap : x.gap = .command) (hlast : x.last ≠ .noDevice) {code : Byte} {r : Bool} {u : FlagUse}
    (h : CodeScan c code false r u) : Mirrors c x (cmd0 code) (cmd0 code) (fun y _ _ => y = commandScan r u) := by
  refine (tWrite_mirrors hlast code).mono ?_
  rintro y - - rfl
  simp [TraceScan.after, commandScan, hgap, h.parameter, h.notSrp, h.reset, h.flags]

/-- A command byte and its parameter. -/
theorem cmd1_mirrors (hgap : x.gap = .command) (hlast : x.last ≠ .noDevice) {code : Byte} {r : Bool} {u : FlagUse}
    (h : CodeScan c code true r u) (p : Byte) :
    Mirrors c x (cmd1 code p) (cmd1 code p) (fun y _ _ => y = commandScan false u) := by
  refine (tWrite_mirrors hlast code).bind ?_
  rintro y - - rfl
  refine (tWrite_mirrors (by simp [TraceScan.after, hgap]) p).mono ?_
  rintro y - - rfl
  simp [TraceScan.after, commandScan, hgap, h.parameter, h.notSrp, h.flags]

/-- Setting the read pointer: a poll follows where it is the status register. -/
theorem setPointer_mirrors (hgap : x.gap = .command) (hlast : x.last ≠ .noDevice) (p : Byte) :
    Mirrors c x (cmd1 c.cmdSRP p) (cmd1 c.cmdSRP p)
      (fun y _ _ => y = ⟨.command, decide (p = c.ptrStatus), false, .none, x.flags⟩) := by
  refine (tWrite_mirrors hlast _).bind ?_
  rintro y - - rfl
  refine (tWrite_mirrors (by simp [TraceScan.after, hgap]) p).mono ?_
  rintro y - - rfl
  simp [TraceScan.after, hgap, flagsAfterCommand]

/-- A read outside a poll, other than the status read of `INIT`, is looked at in every bit. -/
theorem plainRead_mirrors (u : FlagUse) : Mirrors c (commandScan false u) tRead tRead
    (fun y v w => y = commandScan false u ∧ v = w) := by
  refine (tRead_mirrors (commandScan_last _ _)).mono ?_
  rintro y v w ⟨rfl, hread⟩
  exact ⟨rfl, by simpa [sameRead, commandScan] using hread⟩

/-! ### The poll -/

/-- The reads of a poll: both runs read as often, and the bytes that end it agree in the flags taken from them. -/
theorem pollLoop_mirrors (u : FlagUse) (n : Nat) : ∀ {l : PollRead}, l ≠ .noDevice →
    Mirrors c (pollScan u l) (pollLoop n) (pollLoop n) (fun y v w =>
      busyFlag c v = false ∧ y = pollScan .busy (pollRead c u v) ∧ flagsAgree c u v w = true) := by
  induction n with
  | zero => exact fun hl => .throw (by simp [pollScan, hl])
  | succ n ih =>
    intro l hl
    refine (tRead_mirrors hl).bind ?_
    rintro y v w ⟨rfl, hread⟩
    obtain ⟨hbusy, hflags⟩ : busyFlag c v = busyFlag c w ∧ (busyFlag c v = true ∨ flagsAgree c u v w = true) := by
      simpa [sameRead, pollScan] using hread
    refine (Mirrors.modify ?_).bind ?_
    · rintro s s' ⟨st, env, trace, freeIx, rfl⟩
      exact ⟨⟨_, _, _, _, rfl⟩, rfl, rfl, rfl, rfl⟩
    rintro y - - rfl
    refine .getConf_bind ?_
    rw [← hbusy]
    split
    next hv =>
      have hscan : TraceScan.after c (pollScan u l) (.rd 0 v) = pollScan u .busy := by
        simp [TraceScan.after, pollScan, pollRead, hv]
      rw [hscan]
      exact ih nofun
    next hv =>
      have hidle : busyFlag c v = false := by simpa using hv
      have hscan : TraceScan.after c (pollScan u l) (.rd 0 v) = pollScan .busy (pollRead c u v) := by
        simp [TraceScan.after, pollScan, hidle]
      exact .pure ⟨hidle, hscan, flagsAgree_self c u v⟩ ⟨hidle, hscan, hflags.resolve_left hv⟩

theorem pollUntilIdle_mirrors (hgap : x.gap = .command) (hlast : x.last ≠ .noDevice) :
    Mirrors c x pollUntilIdle pollUntilIdle (fun y v w =>
      busyFlag c v = false ∧ y = pollScan .busy (pollRead c x.flags v) ∧ flagsAgree c x.flags v w = true) := by
  refine .getConf_bind ((setPointer_mirrors hgap hlast _).bind ?_)
  rintro y - - rfl
  refine (Mirrors.modify ?_).bind ?_
  · rintro s s' ⟨st, env, trace, freeIx, rfl⟩
    exact ⟨⟨_, _, _, _, rfl⟩, rfl, rfl, rfl, rfl⟩
  rintro y - - rfl
  rw [decide_eq_true rfl]
  exact pollLoop_mirrors x.flags _ nofun

theorem pollRead_ne_noDevice {u : FlagUse} (hu : u ≠ .triplet) (v : Byte) : pollRead c u v ≠ .noDevice := by
  unfold pollRead
  split
  · exact nofun
  · cases u with
    | busy => exact nofun
    | presence => exact nofun
    | triplet => exact absurd rfl hu

/-- A poll that is for no triplet ends between two primitives. -/
theorem settled_pollScan {u : FlagUse} (hu : u ≠ .triplet) (v : Byte) : Settled (pollScan .busy (pollRead c u v)) :=
  ⟨rfl, pollRead_ne_noDevice hu v, rfl⟩

/-- The poll before a command: what it returns is not looked at. -/
theorem firstPoll_mirrors (hx : Settled x) : Mirrors c x pollUntilIdle pollUntilIdle (fun y _ _ => Settled y) := by
  refine (pollUntilIdle_mirrors hx.gap hx.last).mono ?_
  rintro y v w ⟨-, rfl, -⟩
  exact settled_pollScan (by simp [hx.flags]) v

/-! ### The primitives -/
theorem busReset_mirrors (hc : CommandRows c) (hx : Settled x) :
    Mirrors c x busReset busReset (fun y v w => v = w ∧ Settled y) := by
  refine .getConf_bind ((firstPoll_mirrors hx).bind fun y _ _ hy => ?_)
  refine (cmd0_mirrors hy.gap hy.last hc.w1rs).bind ?_
  rintro z - - rfl
  refine (pollUntilIdle_mirrors rfl (commandScan_last _ _)).bind ?_
  rintro z v w ⟨-, rfl, hflags⟩
  have hpresence : presenceFlag c v = presenceFlag c w := by simpa [flagsAgree, commandScan] using hflags
  have hz := settled_pollScan (c := c) (u := (commandScan false .presence).flags) nofun v
  exact .pure ⟨rfl, hz⟩ ⟨hpresence, hz⟩

theorem writeByte_mirrors (hc : CommandRows c) (hx : Settled x) (b : Byte) :
    Mirrors c x (writeByte b) (writeByte b) (fun y _ _ => Settled y) := by
  refine .getConf_bind ((firstPoll_mirrors hx).bind fun y _ _ hy => ?_)
  refine (cmd1_mirrors hy.gap hy.last hc.w1wb b).bind ?_
  rintro z - - rfl
  exact (firstPoll_mirrors (.command false)).bind fun z _ _ hz => .pure hz hz

theorem writeBytes_mirrors (hc : CommandRows c) (bs : List Byte) : ∀ {x : TraceScan}, Settled x →
    Mirrors c x (writeBytes bs) (writeBytes bs) (fun y _ _ => Settled y) := by
  induction bs with
  | nil => exact fun hx => .pure hx hx
  | cons b bs ih => exact fun hx => (writeByte_mirrors hc hx b).bind fun y _ _ hy => ih hy

/-- The byte is read with the pointer at the read-data register, so it is no status byte. -/
theorem readByte_mirrors (hc : CommandRows c) (hp : c.ptrData ≠ c.ptrStatus) (hx : Settled x) :
    Mirrors c x readByte readByte (fun _ v w => v = w) := by
  refine .getConf_bind ((firstPoll_mirrors hx).bind fun y _ _ hy => ?_)
  refine (cmd0_mirrors hy.gap hy.last hc.w1rb).bind ?_
  rintro z - - rfl
  refine (firstPoll_mirrors (.command false)).bind fun z _ _ hz => ?_
  refine (setPointer_mirrors hz.gap hz.last _).bind ?_
  rintro y - - rfl
  have hscan : (⟨.command, decide (c.ptrData = c.ptrStatus), false, .none, z.flags⟩ : TraceScan) =
      commandScan false z.flags := by simp [commandScan, hp]
  rw [hscan]
  exact (plainRead_mirrors _).mono fun _ _ _ h => h.2

theorem matchRomBytes_mirrors (hc : CommandRows c) (hx : Settled x) (id : Identifier) :
    Mirrors c x (matchRomBytes id) (matchRomBytes id) (fun y _ _ => Settled y) :=
  .getConf_bind ((writeByte_mirrors hc hx _).bind fun _ _ _ hy => writeBytes_mirrors hc _ hy)

theorem matchRom_mirrors (hc : CommandRows c) (hx : Settled x) (id : Identifier) :
    Mirrors c x (matchRom id) (matchRom id) (fun _ v w => v = w) := by
  refine (busReset_mirrors hc hx).bind ?_
  rintro y p - ⟨rfl, hy⟩
  split
  · exact (matchRomBytes_mirrors hc hy id).bind fun _ _ _ _ => .pure rfl rfl
  · exact .pure rfl rfl

/-- The scanner marks a triplet that no device answered (`42_rom_search.md` R155). -/
theorem searchTriplet_mirrors (hc : CommandRows c) (hx : Settled x) (dir : Bool) :
    Mirrors c x (searchTriplet dir) (searchTriplet dir) (fun y v w =>
      v = w ∧ y = pollScan .busy (if v.1 && v.2 then .noDevice else .idle)) := by
  refine .getConf_bind ((firstPoll_mirrors hx).bind fun y _ _ hy => ?_)
  refine (cmd1_mirrors hy.gap hy.last hc.w1t _).bind ?_
  rintro z - - rfl
  refine (pollUntilIdle_mirrors rfl (commandScan_last _ _)).bind ?_
  rintro z v w ⟨hidle, rfl, hflags⟩
  have hbits : idBitFlag c v = idBitFlag c w ∧ complementBitFlag c v = complementBitFlag c w := by
    simpa [flagsAgree, commandScan] using hflags
  have hscan : pollRead c (commandScan false .triplet).flags v =
      if idBitFlag c v && complementBitFlag c v then .noDevice else .idle := by
    simp [pollRead, commandScan, hidle]
  exact .pure ⟨rfl, by rw [hscan]⟩ ⟨by rw [hbits.1, hbits.2], by rw [hscan]⟩

/-! ### The search -/

theorem searchStep_mirrors (hc : CommandRows c) (hx : Settled x) (p : Nat) (newLd : Int) :
    Mirrors c x (searchStep p newLd) (searchStep p newLd) (fun y v w => v = w ∧ Settled y) := by
  refine (Mirrors.modify ?_).bind ?_
  · rintro s s' ⟨st, env, trace, freeIx, rfl⟩
    exact ⟨⟨_, _, _, _, rfl⟩, rfl, rfl, rfl, rfl⟩
  rintro y - - rfl
  refine Mirrors.get.bind ?_
  rintro y s - ⟨rfl, st, env, trace, freeIx, rfl⟩
  refine (searchTriplet_mirrors hc hx _).bind ?_
  rintro y ⟨idb, cmp⟩ - ⟨rfl, rfl⟩
  dsimp only
  split
  next hnone =>
    rw [throw_bind]
    exact .throw (by simp [pollScan])
  next hsome =>
    refine (Mirrors.modify ?_).bind ?_
    · rintro s s' ⟨st, env, trace, freeIx, rfl⟩
      exact ⟨⟨_, _, _, _, rfl⟩, rfl, rfl, rfl, rfl⟩
    rintro y - - rfl
    exact .pure ⟨rfl, rfl, nofun, rfl⟩ ⟨rfl, rfl, nofun, rfl⟩

theorem searchSteps_mirrors (hc : CommandRows c) (ps : List Nat) : ∀ {x : TraceScan}, Settled x → ∀ newLd,
    Mirrors c x (searchSteps ps newLd) (searchSteps ps newLd) (fun y v w => v = w ∧ Settled y) := by
  induction ps with
  | nil => exact fun hx _ => .pure ⟨rfl, hx⟩ ⟨rfl, hx⟩
  | cons p ps ih =>
    intro x hx newLd
    refine (searchStep_mirrors hc hx p newLd).bind ?_
    rintro y n - ⟨rfl, hy⟩
    exact ih hy n

theorem searchBookkeeping_twin (newLd : Int) {s s' : State} (h : Twin s s') :
    Twin (searchBookkeeping newLd s) (searchBookkeeping newLd s') := by
  obtain ⟨st, env, trace, freeIx, rfl⟩ := h
  unfold searchBookkeeping
  dsimp only
  split <;> exact ⟨_, _, _, _, rfl⟩

/-- The bookkeeping writes `LD` and `RES` alone. -/
theorem searchBookkeeping_writes (newLd : Int) (s : State) :
    ∃ l, searchBookkeeping newLd s = (s.setLd newLd).setRes l := by
  unfold searchBookkeeping
  dsimp only
  split <;> exact ⟨_, rfl⟩

theorem searchPass_mirrors (hc : CommandRows c) (hx : Settled x) :
    Mirrors c x searchPass searchPass (fun y v w => v = w ∧ Settled y) := by
  refine .getConf_bind ((busReset_mirrors hc hx).bind ?_)
  rintro y p - ⟨rfl, hy⟩
  split
  · refine (writeByte_mirrors hc hy _).bind fun y _ _ hy => ?_
    refine (searchSteps_mirrors hc _ hy _).bind ?_
    rintro y n - ⟨rfl, hy⟩
    refine (Mirrors.modify fun s s' h => ?_).bind ?_
    · obtain ⟨l, hs⟩ := searchBookkeeping_writes n s
      obtain ⟨l', hs'⟩ := searchBookkeeping_writes n s'
      refine ⟨searchBookkeeping_twin n h, ?_⟩
      rw [hs, hs']
      exact ⟨rfl, rfl, rfl, rfl⟩
    rintro z - - rfl
    exact .pure ⟨rfl, hy⟩ ⟨rfl, hy⟩
  · exact .pure ⟨rfl, hy⟩ ⟨rfl, hy⟩

theorem searchLoop_mirrors (hc : CommandRows c) (n : Nat) : ∀ {x : TraceScan}, Settled x →
    Mirrors c x (searchLoop n) (searchLoop n) (fun y v w => v = w ∧ Settled y) := by
  induction n with
  | zero => exact fun hx => .pure ⟨rfl, hx⟩ ⟨rfl, hx⟩
  | succ n ih =>
    intro x hx
    refine (searchPass_mirrors hc hx).bind ?_
    rintro y e - ⟨rfl, hy⟩
    cases e with
    | again => exact ih hy
    | noPresence => exact .pure ⟨rfl, hy⟩ ⟨rfl, hy⟩
    | last => exact .pure ⟨rfl, hy⟩ ⟨rfl, hy⟩

theorem searchProc_mirrors (hc : CommandRows c) (hx : Settled x) :
    Mirrors c x searchProc searchProc (fun y v w => v = w ∧ Settled y) := by
  refine .getConf_bind ((Mirrors.modify ?_).bind ?_)
  · rintro s s' ⟨st, env, trace, freeIx, rfl⟩
    exact ⟨⟨_, _, _, _, rfl⟩, rfl, rfl, rfl, rfl⟩
  rintro y - - rfl
  refine (searchLoop_mirrors hc _ hx).bind ?_
  rintro y finished - ⟨rfl, hy⟩
  refine Mirrors.get.bind ?_
  rintro z s - ⟨rfl, st, env, trace, freeIx, rfl⟩
  exact .pure ⟨rfl, hy⟩ ⟨rfl, hy⟩

/-! ### `INIT` and `SELCH` -/

theorem selchSequence_mirrors (hc : CommandRows c) (hx : Settled x) (ch : BitVec 3) :
    Mirrors c x (selchSequence ch) (selchSequence ch) (fun _ _ _ => True) := by
  refine .getConf_bind ((cmd1_mirrors hx.gap hx.last hc.chsl _).bind ?_)
  rintro y - - rfl
  refine (plainRead_mirrors .busy).bind ?_
  rintro y v - ⟨rfl, rfl⟩
  split
  · exact .throw (by simp [commandScan])
  · exact .pure trivial trivial

theorem initSelect_mirrors (hc : CommandRows c) (hx : Settled x) (ch : BitVec 3) (f : Byte) :
    Mirrors c x (initSelect c ch f) (initSelect c ch f) (fun _ _ _ => True) := by
  refine (Mirrors.modify ?_).bind ?_
  · rintro s s' ⟨st, env, trace, freeIx, rfl⟩
    exact ⟨⟨_, _, _, _, rfl⟩, rfl, rfl, rfl, rfl⟩
  rintro y - - rfl
  split
  · exact (firstPoll_mirrors hx).bind fun _ _ _ hy => selchSequence_mirrors hc hy ch
  · exact .pure trivial trivial

theorem initConfigure_mirrors (hc : CommandRows c) (hx : Settled x) (ch : BitVec 3) :
    Mirrors c x (initConfigure c ch) (initConfigure c ch) (fun _ _ _ => True) := by
  refine (cmd1_mirrors hx.gap hx.last hc.wcfg _).bind ?_
  rintro y - - rfl
  refine (plainRead_mirrors .busy).bind ?_
  rintro y f - ⟨rfl, rfl⟩
  split
  · exact .throw (by simp [commandScan])
  · exact initSelect_mirrors hc (.command false) ch f

/-- The status byte after the device reset is looked at through the test alone (`40_bridge_controller.md` R106). -/
theorem initBody_mirrors (hc : CommandRows c) (hx : Settled x) (ch : BitVec 3) :
    Mirrors c x (initBody ch) (initBody ch) (fun _ _ _ => True) := by
  rw [initBody_eq]
  refine .getConf_bind ((cmd0_mirrors hx.gap hx.last hc.drst).bind ?_)
  rintro y - - rfl
  refine (tRead_mirrors (commandScan_last _ _)).bind ?_
  rintro y v w ⟨rfl, hread⟩
  have hok : initStatusOk c v = initStatusOk c w := by simpa [sameRead, commandScan] using hread
  rw [hok]
  split
  · exact .throw (by simp [TraceScan.after, commandScan])
  · exact initConfigure_mirrors hc (.command false) ch

end

end Sys2Proof.Machine
end

section
/-! PROOFS. What the trace of a `SEARCH` says about its end (`42_rom_search.md` R155), and host operations on two
environments that differ in ignored bits (`10_state.md` R33, 93 U7). -/

namespace Sys2Proof.Machine

open Sys2Proof.Safety

/-! ### The trace of a `SEARCH` -/

/-- A triplet that no device answered is the last operation of a search, exactly where that raised `NoDevice`. -/
theorem searchProc_trace {s : State} (hc : codesDistinct s.conf = true) {ops : List TransportOp}
    (ht : (finalState (searchProc s)).trace = s.trace ++ ops) :
    StopsAtNoDevice s.conf .start ops ∧
      (lastRead s.conf ops = .noDevice ↔ ∃ u, searchProc s = .error .noDevice u) := by
  obtain ⟨hadds, hended, -⟩ := (searchProc_mirrors (commandRows hc) .start).of_trace rfl ht
  refine ⟨hadds.stops, ?_⟩
  cases hp : searchProc s with
  | ok v u =>
    rw [hp] at hended
    exact iff_of_false hended.2.last (by simp)
  | error e u =>
    rw [hp] at hended
    exact hended.trans ⟨fun he => ⟨u, he ▸ rfl⟩, fun ⟨_, he⟩ => (EStateM.Result.error.inj he).1⟩

/-- What a search leaves in `RES` has the checksum of its first seven bytes as its last (`43_checksum.md` R173). -/
theorem EngineInv.checksum {s : State} (h : EngineInv s) :
    ∀ m ∈ s.res, crc8 s.conf.crcPoly (m.toList.take 7) = idByte m 7 :=
  fun m hm => by simpa [idValid, idFirst7] using h.resValid m hm

/-- Settles O50: `RES` by the invariant of the engine, the trace by the scanner's mark at the end of a search. -/
theorem searchDeliversValidIdentifiers : Obligations.SearchDeliversValidIdentifiers := by
  intro s t hm h
  have engine := searchProc_engineInv s
  have frame := searchProc_keeps s
  have trace {ops : List TransportOp} := searchProc_trace (s := s) (ops := ops)
  rcases execSearch_cases h with ⟨hne, -⟩ | ⟨-, u, hu, rfl⟩ | ⟨-, e, u, hu, rfl⟩
  · exact absurd hm hne
  · rw [hu] at engine frame trace
    have checksum := frame.conf ▸ EngineInv.checksum engine
    refine ⟨checksum, engine.resNodup, fun v hv => ?_, fun hc ops hops => ?_⟩
    · exact (HostOutcome.ok.inj (Option.some.inj hv)).symm
    · obtain ⟨hstops, hlast⟩ := trace hc hops
      have hne : lastRead s.conf ops ≠ .noDevice := by simp [hlast]
      exact ⟨fun p op q hpq => (hpq ▸ hstops).last_ne, iff_of_false hne (by simp [deliver]), fun h => absurd h hne⟩
  · rw [hu] at engine frame trace
    have checksum := frame.conf ▸ EngineInv.checksum engine
    refine ⟨by simpa using checksum, by simpa using engine.resNodup, fun v hv => by simp at hv, fun hc ops hops => ?_⟩
    obtain ⟨hstops, hlast⟩ := trace hc ((takeError_trace _ _ _).symm.trans hops)
    have he : lastRead s.conf ops = .noDevice ↔ e = .noDevice := hlast.trans (by simp)
    refine ⟨fun p op q hpq => (hpq ▸ hstops).last_ne, by simp [he, reportedError], fun h => ?_⟩
    rw [takeError_mode, he.1 h]
    exact frame.mode.trans hm

/-! ### Host operations on two environments -/

/-- `u`, where the second run ends, has the outcome and the registers of `t`, where the first ends; `ST` apart, and `CH`
and `CFG` apart where the outcome is an error (logs 8, 26). -/
structure Rerun (s' : State) (ops' : List TransportOp) (rest : List Answer) (t u : State) : Prop where
  trace : u.trace = s'.trace ++ ops'
  env : u.env = .script rest
  outcome : u.outcome = t.outcome
  mode : u.mode = t.mode
  addr : u.addr = t.addr
  ld : u.ld = t.ld
  cand : u.cand = t.cand
  res : u.res = t.res
  pos : u.pos = t.pos
  pollcnt : u.pollcnt = t.pollcnt
  selected : ∀ v, t.outcome = some (.ok v) → u.ch = t.ch ∧ u.cfg = t.cfg

section
variable {s' t u : State} {ops ops' : List TransportOp} {as rest : List Answer}

theorem Echo.rerun (h : Echo s' ops' rest t u) : Rerun s' ops' rest t u := by
  obtain ⟨⟨st, env, trace, freeIx, rfl⟩, htrace, henv⟩ := h
  exact ⟨htrace, henv, rfl, rfl, rfl, rfl, rfl, rfl, rfl, rfl, fun _ _ => ⟨rfl, rfl⟩⟩

/-- What an error loses are free values, and those may differ. -/
theorem Echo.takeError_rerun (h : Echo s' ops' rest t u) (site : ErrorSite) (e : Err) :
    Rerun s' ops' rest (takeError site e t) (takeError site e u) := by
  obtain ⟨htrace, henv, -, hmode, haddr, hld, hcand, hres, hpos, hpollcnt, -⟩ := h.rerun
  constructor <;> simp [htrace, henv, hmode, haddr, hld, hcand, hres, hpos, hpollcnt]

/-- An error of a primitive loses nothing. -/
theorem Echo.takeError_primitive (h : Echo s' ops' rest t u) (e : Err) :
    Echo s' ops' rest (takeError .primitive e t) (takeError .primitive e u) := by
  obtain ⟨⟨st, env, trace, freeIx, rfl⟩, htrace, henv⟩ := h
  exact ⟨⟨_, _, _, _, rfl⟩, htrace, henv⟩

theorem Echo.deliver (h : Echo s' ops' rest t u) (r : HostOutcome Value) :
    Echo s' ops' rest (deliver r t) (deliver r u) := by
  obtain ⟨⟨st, env, trace, freeIx, rfl⟩, htrace, henv⟩ := h
  exact ⟨⟨_, _, _, _, rfl⟩, htrace, henv⟩

theorem Echo.setMode (h : Echo s' ops' rest t u) (m : Mode) : Echo s' ops' rest (t.setMode m) (u.setMode m) := by
  obtain ⟨⟨st, env, trace, freeIx, rfl⟩, htrace, henv⟩ := h
  exact ⟨⟨_, _, _, _, rfl⟩, htrace, henv⟩

theorem Echo.setCh (h : Echo s' ops' rest t u) (ch : BitVec 3) : Echo s' ops' rest (t.setCh ch) (u.setCh ch) := by
  obtain ⟨⟨st, env, trace, freeIx, rfl⟩, htrace, henv⟩ := h
  exact ⟨⟨_, _, _, _, rfl⟩, htrace, henv⟩

end

/-- What the second run of a procedure needs: `s'` is the twin of `s` before answers that give `ops'`, which differ from
the operations `ops` of the first run in ignored bits alone. -/
structure Prepared (x : TraceScan) (s s' : State) (ops ops' : List TransportOp) (as rest : List Answer) : Prop where
  twin : Twin s s'
  replay : Replay s.conf x ops ops' as
  env : s'.env = .script (as ++ rest)

section
variable {x : TraceScan} {s s' t : State} {ops ops' : List TransportOp} {as rest : List Answer}

theorem Prepared.echo {α : Type} {p p' : Proc α} {V : TraceScan → α → α → Prop} (h : Prepared x s s' ops ops' as rest)
    (hp : Mirrors s.conf x p p' V) (ht : (finalState (p s)).trace = s.trace ++ ops) :
    EndAlike (V (scan s.conf x ops)) (Echo s' ops' rest) (p s) (p' s') :=
  (hp.of_trace rfl ht).2.2 s' ops' as rest h.twin h.replay h.env

/-- The first run added nothing, so the second has nothing to add. -/
theorem Prepared.silent (h : Prepared x s s' ops ops' as rest) (ht : s.trace = s.trace ++ ops) :
    Echo s' ops' rest s s' := by
  obtain rfl : ops = [] := by simpa using ht
  obtain ⟨htwin, hreplay, henv⟩ := h
  cases hreplay
  exact ⟨htwin, by simp, henv⟩

theorem hostPrim_rerun {α : Type} {allowed : List Mode} {body : Proc α}
    (hb : Mirrors s.conf x body body (fun _ v w => v = w)) (h : Prepared x s s' ops ops' as rest)
    (ht : (hostPrim allowed body s).2.trace = s.trace ++ ops) :
    ∃ u, hostPrim allowed body s' = ((hostPrim allowed body s).1, u) ∧
      Echo s' ops' rest (hostPrim allowed body s).2 u := by
  have hmode := h.twin.mode
  rcases hostPrim_cases allowed body s with ⟨hm, hp⟩ | ⟨hm, v, t, hv, hp⟩ | ⟨hm, e, t, he, hp⟩ <;> rw [hp] at ht ⊢
  · exact ⟨refuse .notReady s', by simp [hostPrim, hmode, hm], (h.silent ht).deliver _⟩
  · have hend := h.echo hb (by rw [hv]; exact ht)
    rw [hv] at hend
    obtain ⟨w, u, hu, rfl, hecho⟩ := hend
    exact ⟨u, by simp [hostPrim, hmode, hm, hu], hecho⟩
  · have hend := h.echo hb (by rw [he]; exact (takeError_trace _ _ _).symm.trans ht)
    rw [he] at hend
    obtain ⟨u, hu, hecho⟩ := hend
    exact ⟨takeError .primitive e u, by simp [hostPrim, hmode, hm, hu], hecho.takeError_primitive e⟩

theorem endPrim_trace {α : Type} (value : α → Value) (r : HostOutcome α × State) :
    (endPrim value r).trace = r.2.trace := by
  obtain ⟨r, u⟩ := r
  cases r <;> rfl

/-- `OWWRITE`, `OWREAD` and `MATCHROM`. -/
theorem endPrim_rerun {α : Type} (value : α → Value) {body : Proc α}
    (hb : Mirrors s.conf x body body (fun _ v w => v = w)) (h : Prepared x s s' ops ops' as rest)
    (ht : (endPrim value (hostPrim [.ready] body s)).trace = s.trace ++ ops) :
    Rerun s' ops' rest (endPrim value (hostPrim [.ready] body s)) (endPrim value (hostPrim [.ready] body s')) := by
  obtain ⟨u, hu, hecho⟩ := hostPrim_rerun hb h ((endPrim_trace _ _).symm.trans ht)
  rw [hu]
  cases hr : (hostPrim [.ready] body s).1 with
  | ok v => simpa [endPrim, hr] using (hecho.deliver (.ok (value v))).rerun
  | err e => simpa [endPrim, hr] using hecho.rerun
  | refused r => simpa [endPrim, hr] using hecho.rerun

theorem execOwreset_rerun (hc : CommandRows s.conf) (h : Prepared .start s s' ops ops' as rest)
    (hx : exec .owreset s = .next t) (ht : t.trace = s.trace ++ ops) :
    ∃ u, exec .owreset s' = .next u ∧ Rerun s' ops' rest t u := by
  have hb := (busReset_mirrors hc .start).mono fun _ _ _ h => h.1
  obtain rfl := Host.Outcome.next.inj hx
  refine ⟨_, rfl, ?_⟩
  rcases hp : hostPrim [.ready, .dirty] busReset s with ⟨r, w⟩
  have run := hostPrim_rerun (allowed := [.ready, .dirty]) hb h
  rw [hp] at ht run
  obtain ⟨u, hu, hecho⟩ := run (by cases r <;> exact ht)
  rw [hu]
  cases r with
  | ok p => exact ((hecho.setMode .ready).deliver (.ok (.bit p))).rerun
  | err e => exact hecho.rerun
  | refused r => exact hecho.rerun

theorem execSearch_rerun (hc : CommandRows s.conf) (h : Prepared .start s s' ops ops' as rest)
    (hx : exec .search s = .next t) (ht : t.trace = s.trace ++ ops) :
    ∃ u, exec .search s' = .next u ∧ Rerun s' ops' rest t u := by
  have hb := (searchProc_mirrors hc .start).mono fun _ _ _ h => h.1
  have run := hostPrim_rerun (allowed := [.ready]) hb h
  change execSearch s = .next t at hx
  change ∃ u, execSearch s' = .next u ∧ _
  unfold execSearch at hx ⊢
  rcases hp : hostPrim [.ready] searchProc s with ⟨r, w⟩
  rw [hp] at hx run
  match r with
  | .ok (some l) =>
    obtain rfl := Host.Outcome.next.inj hx
    obtain ⟨u, hu, hecho⟩ := run ht
    exact ⟨_, by rw [hu], (hecho.deliver _).rerun⟩
  | .ok none => cases hx
  | .err e =>
    obtain rfl := Host.Outcome.next.inj hx
    obtain ⟨u, hu, hecho⟩ := run ht
    exact ⟨u, by rw [hu], hecho.rerun⟩
  | .refused r =>
    obtain rfl := Host.Outcome.next.inj hx
    obtain ⟨u, hu, hecho⟩ := run ht
    exact ⟨u, by rw [hu], hecho.rerun⟩

/-- A `SEARCH` that runs out of fuel. -/
theorem execSearch_hang (hm : s.mode = .ready) (hp : searchProc s = .ok none t) :
    exec .search s = .fault .searchHang := by
  change execSearch s = _
  simp [execSearch, hostPrim, hm, hp]

theorem initAccepted_rerun (hc : CommandRows s.conf) (h : Prepared .start s s' ops ops' as rest) (addr ch : Byte)
    (ht : (initAccepted addr ch s).trace = s.trace ++ ops) :
    Rerun s' ops' rest (initAccepted addr ch s) (initAccepted addr ch s') := by
  have start : Prepared .start ((s.setMode .uninit).setAddr (addrBits s.conf addr))
      ((s'.setMode .uninit).setAddr (addrBits s'.conf addr)) ops ops' as rest := by
    obtain ⟨⟨st, env, trace, freeIx, rfl⟩, hreplay, henv⟩ := h
    exact ⟨⟨_, _, _, _, rfl⟩, hreplay, henv⟩
  have hend := fun ht => (start.echo (initBody_mirrors hc .start (channelBits ch)) ht).mono
    fun t u hecho => Echo.of_trace (s' := s') hecho rfl
  unfold initAccepted at ht ⊢
  cases hp : initBody (channelBits ch) ((s.setMode .uninit).setAddr (addrBits s.conf addr)) with
  | ok a w =>
    rw [hp] at ht hend
    obtain ⟨b, u, hu, -, hecho⟩ := hend ht
    rw [hu]
    exact (((hecho.setCh _).setMode .ready).deliver _).rerun
  | error e w =>
    rw [hp] at ht hend
    obtain ⟨u, hu, hecho⟩ := hend ((takeError_trace _ _ _).symm.trans ht)
    rw [hu]
    exact hecho.takeError_rerun .init e

theorem execInit_rerun (hc : CommandRows s.conf) (h : Prepared .start s s' ops ops' as rest) {addr ch : Byte}
    (hx : exec (.init addr ch) s = .next t) (ht : t.trace = s.trace ++ ops) :
    ∃ u, exec (.init addr ch) s' = .next u ∧ Rerun s' ops' rest t u := by
  obtain rfl := Host.Outcome.next.inj hx
  refine ⟨_, rfl, ?_⟩
  rw [h.twin.conf]
  split at ht
  next hlegal =>
    rw [if_pos hlegal, if_pos hlegal]
    exact initAccepted_rerun hc h addr ch ht
  next hlegal =>
    rw [if_neg hlegal, if_neg hlegal]
    exact ((h.silent ht).deliver _).rerun

/-- After a first part that returned, the second run is prepared for what the operations left to add. -/
theorem Prepared.after {α : Type} {p p' : Proc α} {V : TraceScan → α → α → Prop} {v : α}
    (h : Prepared x s s' ops ops' as rest) (hp : Mirrors s.conf x p p' V) (hv : p s = .ok v t)
    (ht : t.trace <+: s.trace ++ ops) :
    ∃ y w u ops₂ o₂ as₂, V y v w ∧ p' s' = .ok w u ∧ t.conf = s.conf ∧ s.trace ++ ops = t.trace ++ ops₂ ∧
      s'.trace ++ ops' = u.trace ++ o₂ ∧ Prepared y t u ops₂ o₂ as₂ rest := by
  obtain ⟨htwin, hreplay, henv⟩ := h
  obtain ⟨ops₁, ⟨hconf, htrace, -⟩, -, run⟩ := hp s rfl
  rw [hv] at hconf htrace run
  obtain ⟨ops₂, hops⟩ := ht
  obtain rfl : ops = ops₁ ++ ops₂ := by
    rw [show t.trace = s.trace ++ ops₁ from htrace, List.append_assoc] at hops
    exact (List.append_cancel_left hops).symm
  obtain ⟨o₁, o₂, as₁, as₂, rfl, rfl, hops₁, hops₂⟩ := hreplay.append_inv
  rw [List.append_assoc] at henv
  obtain ⟨w, u, hu, hVw, hecho⟩ := run s' o₁ as₁ (as₂ ++ rest) htwin hops₁ henv
  have hconf : t.conf = s.conf := hconf
  exact ⟨_, w, u, ops₂, o₂, as₂, hVw, hu, hconf, hops.symm, by rw [hecho.trace, List.append_assoc],
    ⟨hecho.twin, hconf ▸ hops₂, hecho.env⟩⟩

/-- The poll and the channel-select sequence, whose errors lose different registers (`40_bridge_controller.md` R113). -/
theorem selchMulti_rerun (hc : CommandRows s.conf) (h : Prepared .start s s' ops ops' as rest) (ch : Byte)
    (ht : (selchMulti ch s).trace = s.trace ++ ops) : Rerun s' ops' rest (selchMulti ch s) (selchMulti ch s') := by
  have poll : Mirrors s.conf .start pollUntilIdle pollUntilIdle (fun y _ _ => Settled y) := firstPoll_mirrors .start
  unfold selchMulti at ht ⊢
  cases hp : pollUntilIdle s with
  | error e t =>
    rw [hp] at ht
    have hend := h.echo poll (by rw [hp]; exact (takeError_trace _ _ _).symm.trans ht)
    rw [hp] at hend
    obtain ⟨u, hu, hecho⟩ := hend
    rw [hu]
    exact hecho.takeError_rerun .selchPoll e
  | ok v t =>
    rw [hp] at ht
    dsimp only at ht
    have hfinal : (finalState (selchSequence (channelBits ch) t)).trace = s.trace ++ ops := by
      rw [← ht]
      cases selchSequence (channelBits ch) t with
      | ok a t₂ => rfl
      | error e t₂ => exact (takeError_trace _ _ _).symm
    obtain ⟨y, w, u, ops₂, o₂, as₂, hy, hu, hconf, hops, hops', h₂⟩ :=
      h.after poll hp (hfinal ▸ (selchSequence_keeps (channelBits ch) t).trace)
    have hend := (h₂.echo (selchSequence_mirrors (hconf ▸ hc) hy _) (hfinal.trans hops)).mono
      fun t₂ u₂ hecho => hecho.of_trace hops'.symm
    rw [hu]
    dsimp only
    cases hq : selchSequence (channelBits ch) t with
    | error e t₂ =>
      rw [hq] at hend
      obtain ⟨u₂, hu₂, hecho⟩ := hend
      rw [hu₂]
      exact hecho.takeError_rerun .selchSequence e
    | ok a t₂ =>
      rw [hq] at hend
      obtain ⟨b, u₂, hu₂, -, hecho⟩ := hend
      rw [hu₂]
      exact ((hecho.setCh _).deliver _).rerun

theorem execSelch_rerun (hc : CommandRows s.conf) (h : Prepared .start s s' ops ops' as rest) {ch : Byte}
    (hx : exec (.selch ch) s = .next t) (ht : t.trace = s.trace ++ ops) :
    ∃ u, exec (.selch ch) s' = .next u ∧ Rerun s' ops' rest t u := by
  have refused {r : RefusedReason} (ht : (refuse r s).trace = s.trace ++ ops) :
      Rerun s' ops' rest (refuse r s) (refuse r s') := ((h.silent ht).deliver _).rerun
  obtain rfl := Host.Outcome.next.inj hx
  refine ⟨_, rfl, ?_⟩
  rw [h.twin.conf, h.twin.mode]
  split at ht
  next hlegal =>
    rw [if_pos hlegal, if_pos hlegal]
    split at ht
    next hm =>
      rw [if_pos hm, if_pos hm]
      unfold selchReady at ht ⊢
      rw [h.twin.conf]
      cases hv : s.conf.variant with
      | single =>
        rw [hv] at ht
        exact ((h.silent ht).deliver _).rerun
      | multi8 =>
        rw [hv] at ht
        exact selchMulti_rerun hc h ch ht
    next hm =>
      rw [if_neg hm, if_neg hm]
      exact refused ht
  next hlegal =>
    rw [if_neg hlegal, if_neg hlegal]
    exact refused ht

/-- A host operation on answers that differ in ignored bits alone. -/
theorem exec_rerun {i : Instr} (hi : isHostOp i = true) (hc : CommandRows s.conf)
    (hp : s.conf.ptrData ≠ s.conf.ptrStatus) (h : Prepared .start s s' ops ops' as rest) (hx : exec i s = .next t)
    (ht : t.trace = s.trace ++ ops) : ∃ u, exec i s' = .next u ∧ Rerun s' ops' rest t u := by
  have prim {β : Type} (value : β → Value) {body : Proc β} (hb : Mirrors s.conf .start body body (fun _ v w => v = w))
      (hx : .next (endPrim value (hostPrim [.ready] body s)) = (.next t : Host.Outcome State Fault Refusal)) :
      ∃ u, .next (endPrim value (hostPrim [.ready] body s')) = (.next u : Host.Outcome State Fault Refusal) ∧
        Rerun s' ops' rest t u := by
    obtain rfl := Host.Outcome.next.inj hx
    exact ⟨_, rfl, endPrim_rerun value hb h ht⟩
  cases i with
  | init addr ch => exact execInit_rerun hc h hx ht
  | selch ch => exact execSelch_rerun hc h hx ht
  | owreset => exact execOwreset_rerun hc h hx ht
  | owwrite b => exact prim _ ((writeByte_mirrors hc .start b).mono fun _ _ _ _ => rfl) hx
  | owread => exact prim _ (readByte_mirrors hc hp .start) hx
  | matchrom id => exact prim _ (matchRom_mirrors hc .start id) hx
  | search => exact execSearch_rerun hc h hx ht
  | crc8 data =>
    obtain rfl := Host.Outcome.next.inj hx
    refine ⟨_, rfl, ?_⟩
    rw [h.twin.conf]
    exact ((h.silent ht).deliver _).rerun
  | _ => simp [isHostOp, opOf, formatOf] at hi

/-- A `SEARCH` that hangs on the one hangs on the other. -/
theorem searchProc_rerun_hang (hc : CommandRows s.conf) (h : Prepared .start s s' ops ops' as rest)
    (hp : searchProc s = .ok none t) (ht : t.trace = s.trace ++ ops) : ∃ u, searchProc s' = .ok none u := by
  have hend := h.echo (searchProc_mirrors hc .start) (by rw [hp]; exact ht)
  rw [hp] at hend
  obtain ⟨w, u, hu, ⟨rfl, -⟩, -⟩ := hend
  exact ⟨u, hu⟩

end

/-- Settles O21: the answers prepare a second run, and every host operation ends there as in the first. -/
theorem ignoredStatusBitsDoNotMatter : Obligations.IgnoredStatusBitsDoNotMatter := by
  intro i s ops ops' as rest hi hcodes hpointers hsame hgives
  have hc := commandRows hcodes
  have hp : s.conf.ptrData ≠ s.conf.ptrStatus := by
    have hnodup : [s.conf.ptrStatus, s.conf.ptrData, s.conf.ptrChannel, s.conf.ptrConfig].Nodup :=
      of_decide_eq_true hpointers
    exact fun he => by simp [he] at hnodup
  have prepared : Prepared .start s { s with env := .script (as ++ rest) } ops ops' as rest :=
    ⟨⟨_, _, _, _, rfl⟩, .of_sameButIgnored hsame hgives, rfl⟩
  refine ⟨fun t hx ht => ?_, ?_⟩
  · obtain ⟨u, hu, htrace, henv, houtcome, hmode, haddr, hld, hcand, hres, hpos, hpollcnt, hselected⟩ :=
      exec_rerun hi hc hp prepared hx ht
    exact ⟨u, hu, htrace, henv, houtcome, hmode, haddr, hld, hcand, hres, hpos, hpollcnt, hselected⟩
  · rintro rfl hm t hsearch ht
    obtain ⟨u, hu⟩ := searchProc_rerun_hang hc prepared hsearch ht
    exact ⟨execSearch_hang hm hsearch, execSearch_hang hm hu⟩

end Sys2Proof.Machine
end

section
/-! PROOFS. After a transport operation that failed a procedure issues no other and raises `TransportError`
(`20_memory.md` R44); every transport operation goes to `ADDR` (`10_state.md` R21). -/

namespace Sys2Proof.Machine

/-! ### Runs without a failed operation, and runs that one ends -/

/-- The operation succeeded, at address `a`. -/
def SucceededAt (a : Byte) : TransportOp → Prop
  | .wr b _ => b = a
  | .rd b _ => b = a
  | .failed => False

/-- The run from `s` to `t` added operations that all succeeded, at `ADDR`. -/
def CleanRun (s t : State) : Prop :=
  t.addr = s.addr ∧ ∃ ops, t.trace = s.trace ++ ops ∧ ∀ op ∈ ops, SucceededAt s.addr op

/-- The run from `s` to `t` ended with its first operation that failed. -/
def CutRun (s t : State) : Prop := ∃ u, CleanRun s u ∧ t.addr = u.addr ∧ t.trace = u.trace ++ [.failed]

theorem CleanRun.of_eq {s t : State} (haddr : t.addr = s.addr) (htrace : t.trace = s.trace) : CleanRun s t :=
  ⟨haddr, [], by simpa using htrace, by simp⟩

theorem CleanRun.refl (s : State) : CleanRun s s := .of_eq rfl rfl

theorem CleanRun.trans {s t u : State} (h : CleanRun s t) (k : CleanRun t u) : CleanRun s u := by
  obtain ⟨haddr, p, htrace, hp⟩ := h
  obtain ⟨haddr', q, htrace', hq⟩ := k
  refine ⟨haddr'.trans haddr, p ++ q, by rw [htrace', htrace, List.append_assoc], fun op hop => ?_⟩
  rcases List.mem_append.1 hop with hop | hop
  · exact hp op hop
  · exact haddr ▸ hq op hop

theorem CleanRun.cutRun {s t u : State} (h : CleanRun s t) (k : CutRun t u) : CutRun s u := by
  obtain ⟨v, hv, haddr, htrace⟩ := k
  exact ⟨v, h.trans hv, haddr, htrace⟩

/-- The registers an operation writes when it ends, `ADDR` apart, make no difference. -/
theorem CutRun.of_eq {s t u : State} (h : CutRun s t) (haddr : u.addr = t.addr) (htrace : u.trace = t.trace) :
    CutRun s u := by
  obtain ⟨v, hv, hvaddr, hvtrace⟩ := h
  exact ⟨v, hv, haddr.trans hvaddr, htrace.trans hvtrace⟩

/-- An operation in the trace that succeeded. -/
theorem record_cleanRun {op : TransportOp} {s t : State} (hop : SucceededAt s.addr op)
    (h : (∃ n, t = s.setFreeIx n) ∨ (∃ e, t = s.setEnv e)) : CleanRun s (record op t) := by
  refine ⟨(record_frame op h).addr, [op], ?_, by simpa using hop⟩
  rcases h with ⟨n, rfl⟩ | ⟨e, rfl⟩ <;> rfl

/-- An operation in the trace that failed. -/
theorem record_cutRun {s t : State} (h : (∃ n, t = s.setFreeIx n) ∨ (∃ e, t = s.setEnv e)) :
    CutRun s (record .failed t) := by
  refine ⟨s, .refl s, (record_frame _ h).addr, ?_⟩
  rcases h with ⟨n, rfl⟩ | ⟨e, rfl⟩ <;> rfl

/-! ### Procedures -/

/-- All operations of the procedure go to `ADDR`; one that fails is its last, and then it raises `TransportError`
(`20_memory.md` R44). -/
structure StopsAtFailure {α : Type} (p : Proc α) : Prop where
  ok : ∀ {s a t}, p s = .ok a t → CleanRun s t
  error : ∀ {s e t}, p s = .error e t → CleanRun s t ∨ (e = .transport ∧ CutRun s t)

section
variable {α β : Type}

theorem StopsAtFailure.bind {x : Proc α} {f : α → Proc β} (hx : StopsAtFailure x) (hf : ∀ a, StopsAtFailure (f a)) :
    StopsAtFailure (x >>= f) where
  ok h := by
    obtain ⟨a, u, hu, h⟩ := bind_ok.1 h
    exact (hx.ok hu).trans ((hf a).ok h)
  error h := by
    rcases bind_error.1 h with h | ⟨a, u, hu, h⟩
    · exact hx.error h
    · exact ((hf a).error h).imp (hx.ok hu).trans fun ⟨he, hcut⟩ => ⟨he, (hx.ok hu).cutRun hcut⟩

/-- A procedure that issues no transport operation. -/
theorem StopsAtFailure.silent {p : Proc α} (h : Keeps (fun s t => t.addr = s.addr ∧ t.trace = s.trace) p) :
    StopsAtFailure p where
  ok hp := have ⟨haddr, htrace⟩ := h.of_ok hp; .of_eq haddr htrace
  error hp := have ⟨haddr, htrace⟩ := h.of_error hp; .inl (.of_eq haddr htrace)

theorem StopsAtFailure.pure (a : α) : StopsAtFailure (pure a : Proc α) := .silent fun _ => ⟨rfl, rfl⟩

theorem StopsAtFailure.throw (e : Err) : StopsAtFailure (throw e : Proc α) := .silent fun _ => ⟨rfl, rfl⟩

theorem StopsAtFailure.getConf : StopsAtFailure getConf := .silent fun _ => ⟨rfl, rfl⟩

theorem StopsAtFailure.get : StopsAtFailure (get : Proc State) := .silent fun _ => ⟨rfl, rfl⟩

theorem StopsAtFailure.modify {f : State → State} (h : ∀ s, (f s).addr = s.addr ∧ (f s).trace = s.trace) :
    StopsAtFailure (modify f : Proc Unit) := .silent h

end

theorem tRead_stopsAtFailure : StopsAtFailure tRead where
  ok {s _ _} h := by
    rcases tRead_cases s with ⟨v, -, hv⟩ | ⟨-, hv⟩ <;> cases hv.symm.trans h
    exact record_cleanRun rfl (envRead_cases s)
  error {s _ _} h := by
    rcases tRead_cases s with ⟨v, -, hv⟩ | ⟨-, hv⟩ <;> cases hv.symm.trans h
    exact .inr ⟨rfl, record_cutRun (envRead_cases s)⟩

theorem tWrite_stopsAtFailure (b : Byte) : StopsAtFailure (tWrite b) where
  ok {s _ _} h := by
    rcases tWrite_cases b s with ⟨-, hv⟩ | ⟨-, hv⟩ <;> cases hv.symm.trans h
    exact record_cleanRun rfl (envWrite_cases b s)
  error {s _ _} h := by
    rcases tWrite_cases b s with ⟨-, hv⟩ | ⟨-, hv⟩ <;> cases hv.symm.trans h
    exact .inr ⟨rfl, record_cutRun (envWrite_cases b s)⟩

theorem pollLoop_stopsAtFailure (n : Nat) : StopsAtFailure (pollLoop n) := by
  induction n with
  | zero => exact .throw _
  | succ n ih =>
    refine tRead_stopsAtFailure.bind fun v => (StopsAtFailure.modify (by simp)).bind fun _ =>
      StopsAtFailure.getConf.bind fun c => ?_
    split
    · exact ih
    · exact .pure _

theorem pollUntilIdle_stopsAtFailure : StopsAtFailure pollUntilIdle :=
  StopsAtFailure.getConf.bind fun _ =>
    ((tWrite_stopsAtFailure _).bind fun _ => tWrite_stopsAtFailure _).bind fun _ =>
    (StopsAtFailure.modify (by simp)).bind fun _ => pollLoop_stopsAtFailure _

theorem BusProc.stopsAtFailure {α : Type} {p : Proc α} (h : BusProc p) : StopsAtFailure p := by
  induction h with
  | tRead => exact tRead_stopsAtFailure
  | tWrite b => exact tWrite_stopsAtFailure b
  | poll => exact pollUntilIdle_stopsAtFailure
  | getConf => exact .getConf
  | pure a => exact .pure a
  | throw e => exact .throw e
  | bind _ _ hx hf => exact hx.bind hf

theorem searchStep_stopsAtFailure (p : Nat) (newLd : Int) : StopsAtFailure (searchStep p newLd) := by
  refine (StopsAtFailure.modify (by simp)).bind fun _ => StopsAtFailure.get.bind fun s =>
    (searchTriplet_busProc _).stopsAtFailure.bind fun ⟨idb, cmp⟩ => ?_
  dsimp only
  split
  · exact .throw _
  · exact (StopsAtFailure.modify (by simp)).bind fun _ => .pure _

theorem searchSteps_stopsAtFailure (ps : List Nat) : ∀ newLd, StopsAtFailure (searchSteps ps newLd) := by
  induction ps with
  | nil => exact fun _ => .pure _
  | cons p ps ih => exact fun _ => (searchStep_stopsAtFailure p _).bind ih

theorem searchPass_stopsAtFailure : StopsAtFailure searchPass := by
  refine StopsAtFailure.getConf.bind fun _ => busReset_busProc.stopsAtFailure.bind fun p => ?_
  split
  · refine (writeByte_busProc _).stopsAtFailure.bind fun _ => (searchSteps_stopsAtFailure _ _).bind fun n =>
      (StopsAtFailure.modify fun s => ?_).bind fun _ => .pure _
    obtain ⟨l, hl⟩ := searchBookkeeping_writes n s
    rw [hl]
    exact ⟨rfl, rfl⟩
  · exact .pure _

theorem searchLoop_stopsAtFailure (n : Nat) : StopsAtFailure (searchLoop n) := by
  induction n with
  | zero => exact .pure _
  | succ n ih =>
    refine searchPass_stopsAtFailure.bind fun e => ?_
    cases e with
    | again => exact ih
    | noPresence => exact .pure _
    | last => exact .pure _

theorem searchProc_stopsAtFailure : StopsAtFailure searchProc :=
  StopsAtFailure.getConf.bind fun _ => (StopsAtFailure.modify (by simp [searchFresh])).bind fun _ =>
    (searchLoop_stopsAtFailure _).bind fun _ => StopsAtFailure.get.bind fun _ => .pure _

theorem initSelect_stopsAtFailure (c : ConfigRecord) (ch : BitVec 3) (f : Byte) :
    StopsAtFailure (initSelect c ch f) := by
  refine (StopsAtFailure.modify (by simp)).bind fun _ => ?_
  split
  · exact (BusProc.poll.bind fun _ => selchSequence_busProc ch).stopsAtFailure
  · exact .pure _

theorem initConfigure_stopsAtFailure (c : ConfigRecord) (ch : BitVec 3) : StopsAtFailure (initConfigure c ch) := by
  refine (cmd1_busProc _ _).stopsAtFailure.bind fun _ => tRead_stopsAtFailure.bind fun f => ?_
  split
  · exact .throw _
  · exact initSelect_stopsAtFailure c ch f

theorem initBody_stopsAtFailure (ch : BitVec 3) : StopsAtFailure (initBody ch) := by
  rw [initBody_eq]
  refine StopsAtFailure.getConf.bind fun c => (tWrite_stopsAtFailure _).bind fun _ =>
    tRead_stopsAtFailure.bind fun v => ?_
  split
  · exact .throw _
  · exact initConfigure_stopsAtFailure c ch

/-! ### Instructions -/

/-- No operation of the run from `s` to `t` failed, or one did, it was the last and the outcome is `Err(e)`. -/
def FailureIsOutcome (e : Err) (s t : State) : Prop := CleanRun s t ∨ (t.outcome = some (.err e) ∧ CutRun s t)

theorem FailureIsOutcome.silent (e : Err) (r : HostOutcome Value) (s : State) :
    FailureIsOutcome e s (deliver r s) := .inl (.of_eq rfl rfl)

section
variable {α : Type} {p : Proc α} {s t u : State}

/-- The body returned, so none of its operations failed. -/
theorem StopsAtFailure.failureIsOutcome_of_ok (hp : StopsAtFailure p) {a : α} (h : p s = .ok a u)
    (haddr : t.addr = u.addr) (htrace : t.trace = u.trace) (e : Err) : FailureIsOutcome e s t :=
  .inl ((hp.ok h).trans (.of_eq haddr htrace))

/-- The body raised: if for an operation that failed, then `TransportError`, which is reported as `site` says. -/
theorem StopsAtFailure.failureIsOutcome_of_error (hp : StopsAtFailure p) {e : Err} (h : p s = .error e u)
    (site : ErrorSite) : FailureIsOutcome (reportedError site .transport) s (takeError site e u) := by
  have haddr := takeError_addr site e u
  have htrace := takeError_trace site e u
  rcases hp.error h with hclean | ⟨rfl, hcut⟩
  · exact .inl (hclean.trans (.of_eq haddr htrace))
  · exact .inr ⟨takeError_outcome _ _ _, hcut.of_eq haddr htrace⟩

theorem primEnd_failureIsOutcome {allowed : List Mode} {finish : α → State → State} (hp : StopsAtFailure p)
    (hfinish : ∀ v u, (finish v u).addr = u.addr ∧ (finish v u).trace = u.trace)
    (h : PrimEnd allowed p finish s t) : FailureIsOutcome .transport s t := by
  cases h with
  | refused hm => exact .silent _ _ s
  | @ok hm v u hv =>
    obtain ⟨haddr, htrace⟩ := hfinish v u
    exact hp.failureIsOutcome_of_ok hv haddr htrace _
  | err hm he => exact hp.failureIsOutcome_of_error he .primitive

theorem runFragment_failureIsOutcome {p : Proc Unit} (hp : StopsAtFailure p) (s : State) :
    FailureIsOutcome .transport s (runFragment p s) := by
  rcases runFragment_cases p s with ⟨-, h⟩ | ⟨-, t, ht, h⟩ | ⟨-, e, t, ht, h⟩ <;> rw [h]
  · exact .silent _ _ s
  · exact hp.failureIsOutcome_of_ok ht (by rfl) (by rfl) _
  · rcases hp.error ht with hclean | ⟨rfl, hcut⟩
    · exact .inl (hclean.trans (.of_eq rfl rfl))
    · exact .inr ⟨rfl, hcut.of_eq rfl rfl⟩

end

section
variable {s t : State}

theorem execSearch_failureIsOutcome (h : exec .search s = .next t) : FailureIsOutcome .transport s t := by
  rcases execSearch_cases h with ⟨-, rfl⟩ | ⟨-, u, hu, rfl⟩ | ⟨-, e, u, hu, rfl⟩
  · exact .silent _ _ s
  · exact searchProc_stopsAtFailure.failureIsOutcome_of_ok hu (by rfl) (by rfl) _
  · exact searchProc_stopsAtFailure.failureIsOutcome_of_error hu .primitive

/-- The poll and the channel-select sequence of `SELCH` are one procedure, whose error is reported as it is
(`40_bridge_controller.md` R110, R113). -/
theorem selchMulti_cases (ch : Byte) (s : State) :
    (∃ u, (pollUntilIdle >>= fun _ => selchSequence (channelBits ch)) s = .ok () u ∧
      selchMulti ch s = deliver (.ok .none) (u.setCh (channelBits ch))) ∨
    ∃ site e u, (pollUntilIdle >>= fun _ => selchSequence (channelBits ch)) s = .error e u ∧
      selchMulti ch s = takeError site e u ∧ ∀ e, reportedError site e = e := by
  rw [bind_run]
  unfold selchMulti
  cases pollUntilIdle s with
  | error e u => exact .inr ⟨.selchPoll, e, u, rfl, rfl, fun _ => rfl⟩
  | ok v u =>
    dsimp only
    cases selchSequence (channelBits ch) u with
    | error e w => exact .inr ⟨.selchSequence, e, w, rfl, rfl, fun _ => rfl⟩
    | ok a w => exact .inl ⟨w, rfl, rfl⟩

theorem selchMulti_failureIsOutcome (ch : Byte) (s : State) : FailureIsOutcome .transport s (selchMulti ch s) := by
  have body := (BusProc.poll.bind fun _ => selchSequence_busProc (channelBits ch)).stopsAtFailure
  rcases selchMulti_cases ch s with ⟨u, hu, h⟩ | ⟨site, e, u, hu, h, hsite⟩ <;> rw [h]
  · exact body.failureIsOutcome_of_ok hu (by rfl) (by rfl) _
  · exact hsite .transport ▸ body.failureIsOutcome_of_error hu site

theorem execSelch_failureIsOutcome {ch : Byte} (h : exec (.selch ch) s = .next t) :
    FailureIsOutcome .transport s t := by
  obtain rfl := Host.Outcome.next.inj h
  split
  · split
    · unfold selchReady
      split
      · exact .silent _ _ s
      · exact selchMulti_failureIsOutcome ch s
    · exact .silent _ _ s
  · exact .silent _ _ s

/-- `INIT` writes `ADDR` before its first transport operation (`40_bridge_controller.md` R104), so its run starts from
a state that differs from `s` in `ADDR`. -/
theorem execInit_failureIsOutcome {addr ch : Byte} (h : exec (.init addr ch) s = .next t) :
    ∃ u, u.trace = s.trace ∧ FailureIsOutcome .initialization u t := by
  obtain rfl := Host.Outcome.next.inj h
  split
  · refine ⟨(s.setMode .uninit).setAddr (addrBits s.conf addr), rfl, ?_⟩
    unfold initAccepted
    split
    next hu => exact (initBody_stopsAtFailure _).failureIsOutcome_of_ok hu (by rfl) (by rfl) _
    next hu => exact (initBody_stopsAtFailure _).failureIsOutcome_of_error hu .init
  · exact ⟨s, rfl, .silent _ _ s⟩

theorem exec_failureIsOutcome {i : Instr} (hinit : ∀ addr ch, i ≠ .init addr ch) (h : exec i s = .next t) :
    FailureIsOutcome .transport s t := by
  have prim {β : Type} (value : β → Value) {body : Proc β} (hb : BusProc body) :
      FailureIsOutcome .transport s (endPrim value (hostPrim [.ready] body s)) :=
    primEnd_failureIsOutcome hb.stopsAtFailure (by simp [deliver]) (endPrim_primEnd [.ready] body value s)
  by_cases hi : formatOf (opOf i) = .H
  · cases i with
    | init addr ch => exact absurd rfl (hinit addr ch)
    | selch ch => exact execSelch_failureIsOutcome h
    | owreset =>
      exact primEnd_failureIsOutcome busReset_busProc.stopsAtFailure (by simp [deliver, recover])
        (execOwreset_primEnd h)
    | owwrite b => exact Host.Outcome.next.inj h ▸ prim _ (writeByte_busProc b)
    | owread => exact Host.Outcome.next.inj h ▸ prim _ readByte_busProc
    | matchrom id => exact Host.Outcome.next.inj h ▸ prim _ (matchRom_busProc id)
    | search => exact execSearch_failureIsOutcome h
    | crc8 data => exact Host.Outcome.next.inj h ▸ .silent _ _ s
    | _ => cases hi
  · obtain ⟨p, hx, hp⟩ := exec_fragment_busProc hi s
    obtain rfl := Host.Outcome.next.inj (hx.symm.trans h)
    exact runFragment_failureIsOutcome hp.stopsAtFailure s

end

/-! ### The operations a run added -/

/-- The operations such a run added: only the last can have failed, and the others went to `ADDR`. -/
theorem FailureIsOutcome.operations {e : Err} {s t : State} (h : FailureIsOutcome e s t) :
    ∃ ops, t.trace = s.trace ++ ops ∧ .failed ∉ ops.dropLast ∧ (.failed ∈ ops → t.outcome = some (.err e)) ∧
      ∀ op ∈ ops, op ≠ .failed → SucceededAt t.addr op := by
  rcases h with ⟨haddr, ops, htrace, hops⟩ | ⟨hout, u, ⟨huaddr, ops, hutrace, hops⟩, haddr, htrace⟩
  · have clean : TransportOp.failed ∉ ops := fun hf => hops _ hf
    exact ⟨ops, htrace, fun hf => clean (List.mem_of_mem_dropLast hf), fun hf => absurd hf clean,
      fun op hop _ => haddr ▸ hops op hop⟩
  · refine ⟨ops ++ [.failed], by rw [htrace, hutrace, List.append_assoc], ?_, fun _ => hout, fun op hop hne => ?_⟩
    · rw [List.dropLast_concat]
      exact fun hf => hops _ hf
    · rcases List.mem_append.1 hop with hop | hop
      · exact haddr.trans huaddr ▸ hops op hop
      · exact absurd (List.mem_singleton.1 hop) hne

/-- Settles O11: the operations that the runs of `INIT` and of the other instructions added; a run of `INIT` starts from
a state with the trace of `s`. -/
theorem noTransportOperationFollowsAFailedOne : Obligations.NoTransportOperationFollowsAFailedOne := by
  intro i s t h
  by_cases hinit : ∃ addr ch, i = .init addr ch
  · obtain ⟨addr, ch, rfl⟩ := hinit
    obtain ⟨u, hu, hrun⟩ := execInit_failureIsOutcome h
    obtain ⟨ops, htrace, hlast, hout, hops⟩ := hrun.operations
    exact ⟨ops, hu ▸ htrace, hlast, fun hf => ⟨fun _ => hout hf, fun hne => absurd rfl (hne addr ch)⟩,
      fun a b hop => hops _ hop nofun, fun a v hop => hops _ hop nofun⟩
  · obtain ⟨ops, htrace, hlast, hout, hops⟩ := (exec_failureIsOutcome (by simpa using hinit) h).operations
    exact ⟨ops, htrace, hlast, fun hf => ⟨fun hi => absurd hi hinit, fun _ => hout hf⟩,
      fun a b hop => hops _ hop nofun, fun a v hop => hops _ hop nofun⟩

end Sys2Proof.Machine
end

section
/-! PROOFS. What the shared operations of the block do on the reference environment (`21_reference_environment.md` R62 to
R65, R69): a transport operation, a bridge command, and the poll. -/

namespace Sys2Proof.Machine

open Sys2Proof.Safety

/-! ### Bits of a status byte and of an identifier -/

/-- The byte with bit `i` alone. -/
theorem getLsbD_singleBit {i j : Nat} (hj : j < 8) : (BitVec.ofNat 8 (2 ^ i)).getLsbD j = decide (j = i) := by
  rw [BitVec.getLsbD_ofNat, Nat.testBit_two_pow]
  simp [hj, eq_comm]

/-- A byte with one bit replaced, as `withBit` and `withIdBit` write it. -/
theorem getLsbD_replaceBit (b : Byte) {i j : Nat} (hj : j < 8) (v : Bool) :
    (if v then b ||| BitVec.ofNat 8 (2 ^ i) else b &&& ~~~ BitVec.ofNat 8 (2 ^ i)).getLsbD j =
      if j = i then v else b.getLsbD j := by
  cases v with
  | false =>
    simp only [Bool.false_eq_true, if_false, BitVec.getLsbD_and, BitVec.getLsbD_not, getLsbD_singleBit hj]
    by_cases h : j = i <;> simp [h, hj]
  | true =>
    simp only [if_true, BitVec.getLsbD_or, getLsbD_singleBit hj]
    by_cases h : j = i <;> simp [h]

@[simp] theorem bitOf_withBit (b : Byte) (i j : Fin 8) (v : Bool) :
    bitOf (withBit b i v) j = if j = i then v else bitOf b j := by
  rw [bitOf, withBit, getLsbD_replaceBit b j.isLt]
  simp only [Fin.ext_iff, bitOf]

theorem idByte_eq_getD (x : Identifier) (k : Nat) : idByte x k = x[k]?.getD 0 := by
  simp [idByte, Vector.getD]

theorem idByte_setIfInBounds (x : Identifier) {q : Nat} (hq : q < 8) (k : Nat) (b : Byte) :
    idByte (x.setIfInBounds q b) k = if k = q then b else idByte x k := by
  simp only [idByte_eq_getD, Vector.getElem?_setIfInBounds, eq_comm (a := q), hq]
  split <;> rfl

theorem idBit_withIdBit (x : Identifier) {p : Nat} (hp : p < 64) (i : Nat) (v : Bool) :
    idBit (withIdBit x p v) i = if i = p then v else idBit x i := by
  rw [idBit, withIdBit, idByte_setIfInBounds x (Nat.div_lt_of_lt_mul hp)]
  by_cases hdiv : i / 8 = p / 8
  · have hmod : i % 8 = p % 8 ↔ i = p := by omega
    rw [if_pos hdiv, getLsbD_replaceBit _ (Nat.mod_lt _ (by decide))]
    simp only [hmod, idBit, hdiv]
  · have hne : i ≠ p := fun h => hdiv (by rw [h])
    rw [if_neg hdiv, if_neg hne, idBit]

/-- An identifier is its eight bytes. -/
theorem identifier_ext {x y : Identifier} (h : ∀ k < 8, idByte x k = idByte y k) : x = y := by
  refine Vector.ext fun k hk => ?_
  simpa [idByte_eq_getD, hk] using h k hk

/-- An identifier is its 64 bits. -/
theorem identifier_ext_bits {x y : Identifier} (h : ∀ i < 64, idBit x i = idBit y i) : x = y := by
  refine identifier_ext fun k hk => BitVec.eq_of_getLsbD_eq fun i hi => ?_
  have hbit := h (8 * k + i) (by omega)
  have hdiv : (8 * k + i) / 8 = k := by omega
  have hmod : (8 * k + i) % 8 = i := by omega
  rwa [idBit, idBit, hdiv, hmod] at hbit

/-! ### Transport operations -/

/-- The environment is `e`; it acknowledges at `ADDR`, no operation is to fail, and no command waits for a parameter. -/
structure OnRef (s : State) (e : RefEnv) : Prop where
  env : s.env = .ref e
  ack : e.ack = true
  addr : e.addr = s.addr
  noFailure : e.failAt = none
  noPending : e.pend = .none

theorem OnRef.of_ready {s : State} {e : RefEnv} (h : RefReady s e) : OnRef s e :=
  ⟨h.env, h.ack, h.addr, h.noFailure, h.noPending⟩

/-- The environment goes on acknowledging as before. -/
structure AckFrame (e f : RefEnv) : Prop where
  addr : f.addr = e.addr
  ack : f.ack = e.ack
  failAt : f.failAt = e.failAt
  pend : f.pend = e.pend

/-- What no command but `DRST`, `WCFG` and `CHSL` changes of the environment, and no poll: its parameters but the feed
(`21_reference_environment.md` R60), the configuration, the selected channel and the pending command. -/
structure WireFrame (e f : RefEnv) : Prop where
  addr : f.addr = e.addr
  ack : f.ack = e.ack
  nch : f.nch = e.nch
  dev : f.dev = e.dev
  busyN : f.busyN = e.busyN
  failAt : f.failAt = e.failAt
  cfg : f.cfg = e.cfg
  chan : f.chan = e.chan
  pend : f.pend = e.pend

/-- The block may move anything but its address. -/
theorem OnRef.of_eq {s t : State} {e : RefEnv} (h : OnRef s e) (henv : t.env = s.env) (haddr : t.addr = s.addr) :
    OnRef t e :=
  ⟨henv.trans h.env, h.ack, h.addr.trans haddr.symm, h.noFailure, h.noPending⟩

theorem WireFrame.ackFrame {e f : RefEnv} (h : WireFrame e f) : AckFrame e f := ⟨h.addr, h.ack, h.failAt, h.pend⟩

theorem WireFrame.attached {e f : RefEnv} (h : WireFrame e f) : refAttached f = refAttached e := by
  rw [refAttached, refAttached, h.dev, h.chan]

theorem refTick_of_noFailure {e : RefEnv} (h : e.failAt = none) : refTick e = e := by
  rw [refTick, h]

theorem OnRef.acks {s : State} {e : RefEnv} (h : OnRef s e) : refAcks s.addr e = true := by
  simp [refAcks, h.ack, h.addr, h.noFailure]

theorem tRead_ref {s : State} {e : RefEnv} (h : OnRef s e) :
    tRead s = .ok (refReadReg s.conf e).1 { s with
      env := .ref (refReadReg s.conf e).2, trace := s.trace ++ [.rd s.addr (refReadReg s.conf e).1] } := by
  simp only [tRead, envRead, h.env, refRead, h.acks, if_true, refTick_of_noFailure h.noFailure]
  rfl

/-- A write that is acknowledged, whether a command waits for a parameter or not. -/
theorem tWrite_ref {s : State} {e : RefEnv} (henv : s.env = .ref e) (hacks : refAcks s.addr e = true)
    (hf : e.failAt = none) (b : Byte) :
    tWrite b s = .ok () { s with env := .ref (refWriteReg s.conf b e), trace := s.trace ++ [.wr s.addr b] } := by
  simp only [tWrite, envWrite, henv, refWrite, hacks, if_true, refTick_of_noFailure hf]
  rfl

/-- A write that is not acknowledged changes nothing of the environment (`21_reference_environment.md` R62). -/
theorem tWrite_ref_nack {s : State} {e : RefEnv} (henv : s.env = .ref e) (hacks : refAcks s.addr e = false)
    (hf : e.failAt = none) (b : Byte) : tWrite b s = .error .transport { s with trace := s.trace ++ [.failed] } := by
  simp only [tWrite, envWrite, henv, refWrite, hacks, Bool.false_eq_true, if_false, refTick_of_noFailure hf]
  rw [← henv]
  rfl

/-! ### Bridge commands -/

/-- What each command byte the block emits does (`21_reference_environment.md` R65). -/
structure RefCommands (c : ConfigRecord) : Prop where
  drst : ∀ e, refCommand c c.cmdDRST e = refDeviceReset c e
  srp : ∀ e, refCommand c c.cmdSRP e = { e with pend := .srp }
  wcfg : ∀ e, refCommand c c.cmdWCFG e = { e with pend := .wcfg }
  chsl : ∀ e, refCommand c c.cmdCHSL e = { e with pend := .chsl }
  w1wb : ∀ e, refCommand c c.cmd1WWB e = { e with pend := .w1wb }
  w1t : ∀ e, refCommand c c.cmd1WT e = { e with pend := .w1t }
  w1rs : ∀ e, refCommand c c.cmd1WRS e = refBusReset c e
  w1rb : ∀ e, refCommand c c.cmd1WRB e = refByteRead e

theorem refCommands {c : ConfigRecord} (hc : codesDistinct c = true) : RefCommands c := by
  have h : [c.cmdDRST, c.cmdSRP, c.cmdWCFG, c.cmdCHSL, c.cmd1WRS, c.cmd1WWB, c.cmd1WRB, c.cmd1WT, c.cmd1WSB].Nodup :=
    (of_decide_eq_true hc).2.1
  simp only [List.nodup_cons, List.mem_cons, List.not_mem_nil, not_or, or_false, not_false_eq_true] at h
  constructor <;> intro e <;> simp [refCommand] <;> grind

/-! What the parameter of each command that waits for one does (`21_reference_environment.md` R64). -/

section
variable (c : ConfigRecord) (b : Byte) {e : RefEnv} (h : e.pend = .none)
include h

theorem refWriteReg_command : refWriteReg c b e = refCommand c b e := by
  rw [refWriteReg, h]

theorem refWriteReg_srp : refWriteReg c b { e with pend := .srp } = refSetPointer c b e := by
  cases e; cases h; rfl

theorem refWriteReg_wcfg : refWriteReg c b { e with pend := .wcfg } = refWriteConfig c b e := by
  cases e; cases h; rfl

theorem refWriteReg_chsl : refWriteReg c b { e with pend := .chsl } = refSelectChannel c b e := by
  cases e; cases h; rfl

theorem refWriteReg_w1wb : refWriteReg c b { e with pend := .w1wb } = refByteWrite c b e := by
  cases e; cases h; rfl

theorem refWriteReg_w1t : refWriteReg c b { e with pend := .w1t } = refTriplet c b e := by
  cases e; cases h; rfl

end

section
variable {s : State} {e : RefEnv}

theorem cmd0_ref (h : OnRef s e) (code : Byte) :
    cmd0 code s = .ok () { s with
      env := .ref (refCommand s.conf code e), trace := s.trace ++ [.wr s.addr code] } := by
  rw [cmd0, tWrite_ref h.env h.acks h.noFailure, refWriteReg_command _ _ h.noPending]

/-- A command byte that waits as `q`, and its parameter. -/
theorem cmd1_ref (h : OnRef s e) {code : Byte} {q : Pending} (hcode : refCommand s.conf code e = { e with pend := q })
    (p : Byte) :
    cmd1 code p s = .ok () { s with
      env := .ref (refWriteReg s.conf p { e with pend := q })
      trace := s.trace ++ [.wr s.addr code, .wr s.addr p] } := by
  rw [cmd1, bind_of_ok (show tWrite code s = _ from cmd0_ref h code), hcode]
  refine (tWrite_ref (s := { s with env := .ref { e with pend := q }, trace := s.trace ++ [.wr s.addr code] })
    rfl h.acks h.noFailure p).trans ?_
  simp

end

/-! ### Procedures that return and leave the environment ready -/

/-- From every state with the record `c` on the environment `e` the procedure returns `v` and leaves the environment as
`f`, at the address it had. -/
def RefRun {α : Type} (c : ConfigRecord) (e : RefEnv) (p : Proc α) (v : α) (f : RefEnv) : Prop :=
  ∀ s, s.conf = c → OnRef s e → ∃ t, p s = .ok v t ∧ t.conf = c ∧ OnRef t f

section
variable {α β : Type} {c : ConfigRecord} {e f g : RefEnv}

theorem OnRef.next {s t : State} (h : OnRef s e) (ht : t.addr = s.addr) (henv : t.env = .ref f) (hf : AckFrame e f) :
    OnRef t f :=
  ⟨henv, hf.ack.trans h.ack, by rw [hf.addr, h.addr, ht], hf.failAt.trans h.noFailure, hf.pend.trans h.noPending⟩

theorem RefRun.pure (v : α) : RefRun c e (pure v) v e := fun s hs h => ⟨s, rfl, hs, h⟩

theorem RefRun.bind {x : Proc α} {k : α → Proc β} {a : α} {b : β} (hx : RefRun c e x a f)
    (hk : RefRun c f (k a) b g) : RefRun c e (x >>= k) b g := by
  intro s hs h
  obtain ⟨t, hxs, hts, ht⟩ := hx s hs h
  obtain ⟨u, hku, hus, hu⟩ := hk t hts ht
  exact ⟨u, (bind_of_ok hxs k).trans hku, hus, hu⟩

theorem RefRun.getConf_bind {k : ConfigRecord → Proc β} {b : β} (hk : RefRun c e (k c) b f) :
    RefRun c e (getConf >>= k) b f := by
  intro s hs h
  rw [bind_of_ok (getConf_run s), hs]
  exact hk s hs h

/-- A procedure that keeps the record and the address. -/
theorem RefRun.of_keeps {p : Proc α} {v : α} (hp : Keeps (fun s t => t.conf = s.conf ∧ t.addr = s.addr) p)
    (hf : AckFrame e f) (h : ∀ s, s.conf = c → OnRef s e → ∃ t, p s = .ok v t ∧ t.env = .ref f) :
    RefRun c e p v f := by
  intro s hs he
  obtain ⟨t, hps, henv⟩ := h s hs he
  obtain ⟨hconf, haddr⟩ := hp.of_ok hps
  exact ⟨t, hps, hconf.trans hs, he.next haddr henv hf⟩

theorem RefRun.modify {u : State → State} (hconf : ∀ s, (u s).conf = s.conf) (haddr : ∀ s, (u s).addr = s.addr)
    (henv : ∀ s, (u s).env = s.env) : RefRun c e (modify u) () e :=
  fun s hs h => ⟨u s, rfl, (hconf s).trans hs, h.of_eq (henv s) (haddr s)⟩

theorem tRead_refRun (hf : AckFrame e (refReadReg c e).2) :
    RefRun c e tRead (refReadReg c e).1 (refReadReg c e).2 :=
  .of_keeps (tRead_keeps.mono fun _ _ h => ⟨h.conf, h.addr⟩) hf fun _ hs h => hs ▸ ⟨_, tRead_ref h, rfl⟩

theorem cmd0_refRun {code : Byte} (hcode : refCommand c code e = f) (hf : AckFrame e f) :
    RefRun c e (cmd0 code) () f :=
  .of_keeps ((cmd0_keeps code).mono fun _ _ h => ⟨h.conf, h.addr⟩) hf fun s hs h =>
    ⟨_, cmd0_ref h code, by rw [hs, hcode]⟩

theorem cmd1_refRun {code p : Byte} {q : Pending} (hcode : refCommand c code e = { e with pend := q })
    (hp : e.pend = .none → refWriteReg c p { e with pend := q } = f) (hf : AckFrame e f) :
    RefRun c e (cmd1 code p) () f :=
  .of_keeps ((cmd1_keeps code p).mono fun _ _ h => ⟨h.conf, h.addr⟩) hf fun s hs h =>
    ⟨_, cmd1_ref h (hs ▸ hcode) p, by rw [hs, hp h.noPending]⟩

end

/-! ### The poll -/

/-- The status byte that ends a poll (`21_reference_environment.md` R63). -/
def idleStatus (c : ConfigRecord) (e : RefEnv) : Byte := withBit e.st c.st1WB false

/-- What a poll leaves of the environment: it is busy no longer, and the read pointer is at the status register. -/
def afterPoll (e : RefEnv) : RefEnv := { e with busy := 0, ptr := .status }

theorem afterPoll_frame (e : RefEnv) : WireFrame e (afterPoll e) := ⟨rfl, rfl, rfl, rfl, rfl, rfl, rfl, rfl, rfl⟩

/-- One status read of the loop: the loop goes on while the environment answers busy. -/
theorem pollLoop_succ_ref {s : State} {e : RefEnv} (h : OnRef s e) (hptr : e.ptr = .status) (n : Nat) :
    ∃ t, pollLoop (n + 1) s = (if 0 < e.busy then pollLoop n t else .ok (idleStatus s.conf e) t) ∧
      t.pollcnt = s.pollcnt + 1 ∧ t.st = withBit e.st s.conf.st1WB (decide (0 < e.busy)) ∧ t.conf = s.conf ∧
      OnRef t { e with busy := e.busy - 1 } := by
  rw [pollLoop, bind_of_ok (tRead_ref h)]
  simp only [bind_run, modify_run, getConf_run, refReadReg, hptr, State.setPollcnt_conf, State.setSt_conf, busyFlag,
    bitOf_withBit, if_true, decide_eq_true_eq]
  refine ⟨?after, ?run, ?rest⟩
  case run =>
    split
    · rfl
    next hb => simp only [hb, decide_false]; rfl
  case rest => exact ⟨rfl, rfl, rfl, rfl, h.ack, h.addr, h.noFailure, h.noPending⟩

/-- The loop reads busy `e.busy` times, and then the status byte that ends it. -/
theorem pollLoop_ref (n : Nat) : ∀ {s : State} {e : RefEnv}, OnRef s e → e.ptr = .status → e.busy < n →
    ∃ t, pollLoop n s = .ok (idleStatus s.conf e) t ∧ t.pollcnt = s.pollcnt + (e.busy + 1) ∧
      t.st = idleStatus s.conf e ∧ t.env = .ref (afterPoll e) := by
  induction n with
  | zero => exact fun _ _ hn => absurd hn (Nat.not_lt_zero _)
  | succ n ih =>
    intro s e h hptr hn
    obtain ⟨t, hrun, hcnt, hst, hconf, ht⟩ := pollLoop_succ_ref h hptr n
    rw [hrun]
    by_cases hb : 0 < e.busy
    · rw [if_pos hb]
      obtain ⟨u, hu, hucnt, hust, huenv⟩ := ih ht hptr (by simp; omega)
      rw [hconf] at hu hust
      refine ⟨u, hu, ?_, hust, huenv⟩
      simp only at hucnt
      omega
    · rw [if_neg hb]
      refine ⟨t, rfl, by omega, by simpa [hb, idleStatus] using hst, ht.env.trans ?_⟩
      rw [afterPoll, Nat.eq_zero_of_not_pos hb, hptr]

/-- A poll sets the read pointer and ends after as many reads as the environment is busy, and one
(`21_reference_environment.md` R69). -/
theorem pollUntilIdle_ref {s : State} {e : RefEnv} (h : OnRef s e) (hc : codesDistinct s.conf = true)
    (hb : e.busy < s.conf.pollMax) :
    ∃ t, pollUntilIdle s = .ok (idleStatus s.conf e) t ∧ t.pollcnt = e.busy + 1 ∧ t.st = idleStatus s.conf e ∧
      t.env = .ref (afterPoll e) := by
  have hptr : refSetPointer s.conf s.conf.ptrStatus e = { e with ptr := .status } := by simp [refSetPointer, refPointer]
  obtain ⟨u, hu, hconf, hus⟩ : ∃ u, cmd1 s.conf.cmdSRP s.conf.ptrStatus s = .ok () u ∧ u.conf = s.conf ∧
      OnRef u { e with ptr := .status } := by
    refine ⟨_, cmd1_ref h ((refCommands hc).srp e) _, rfl, ?_, h.ack, h.addr, h.noFailure, h.noPending⟩
    rw [refWriteReg_srp _ _ h.noPending, hptr]
  obtain ⟨t, hrun, hcnt, hst, henv⟩ := pollLoop_ref s.conf.pollMax (hus.of_eq (t := u.setPollcnt 0) rfl rfl) rfl hb
  rw [State.setPollcnt_conf, hconf] at hrun hst
  refine ⟨t, ?_, hcnt.trans (by simp), hst, henv⟩
  rw [pollUntilIdle, bind_of_ok (getConf_run s), bind_of_ok hu, bind_of_ok (modify_run _ u), hrun]
  rfl

theorem pollUntilIdle_refRun {c : ConfigRecord} {e : RefEnv} (hc : codesDistinct c = true) (hb : e.busy < c.pollMax) :
    RefRun c e pollUntilIdle (idleStatus c e) (afterPoll e) := by
  refine .of_keeps (pollUntilIdle_keeps.mono fun _ _ h => ⟨h.conf, h.addr⟩) (afterPoll_frame e).ackFrame ?_
  rintro s rfl h
  obtain ⟨t, hrun, -, -, henv⟩ := pollUntilIdle_ref h hc hb
  exact ⟨t, hrun, henv⟩

/-- Settles O51: the poll on an environment that is ready. -/
theorem pollOnReferenceEnvironment : Obligations.PollOnReferenceEnvironment := by
  intro s e h hc
  obtain ⟨t, hrun, hcnt, hst, henv⟩ := pollUntilIdle_ref (OnRef.of_ready h) hc h.busyNow
  exact ⟨_, t, hrun, hcnt, rfl, hst, henv⟩

end Sys2Proof.Machine
end

section
/-! PROOFS. The primitives of the OneWireBus on the reference environment (`21_reference_environment.md` R65 to R69): a
1-Wire command between two polls. -/

namespace Sys2Proof.Machine

open Sys2Proof.Safety

/-! ### 1-Wire commands on the environment -/

/-- The status bits that the primitives read stand apart from the others they could be taken for. -/
structure StatusBitsApart (c : ConfigRecord) : Prop where
  presence : c.stPPD ≠ c.st1WB ∧ c.stPPD ≠ c.stSD
  idBit : c.stSBR ≠ c.st1WB ∧ c.stSBR ≠ c.stTSB ∧ c.stSBR ≠ c.stDIR
  complement : c.stTSB ≠ c.st1WB ∧ c.stTSB ≠ c.stDIR

theorem statusBitsApart {c : ConfigRecord} (h : statusBitsDistinct c = true) : StatusBitsApart c := by
  have h := of_decide_eq_true h
  simp only [List.nodup_cons, List.mem_cons, List.not_mem_nil, not_or, or_false, not_false_eq_true] at h
  constructor <;> grind

section
variable (c : ConfigRecord) (b : Byte) (e : RefEnv)

theorem refBusReset_frame : WireFrame e (refBusReset c e) := ⟨rfl, rfl, rfl, rfl, rfl, rfl, rfl, rfl, rfl⟩

theorem refByteRead_frame : WireFrame e (refByteRead e) := ⟨rfl, rfl, rfl, rfl, rfl, rfl, rfl, rfl, rfl⟩

theorem refByteWrite_frame : WireFrame e (refByteWrite c b e) := by
  unfold refByteWrite
  cases e.rom with
  | cmd => dsimp only; split_ifs <;> constructor <;> rfl
  | _ => constructor <;> rfl

theorem refTriplet_frame : WireFrame e (refTriplet c b e) := by
  unfold refTriplet
  cases e.rom <;> constructor <;> rfl

theorem refByteWrite_busy : (refByteWrite c b e).busy = e.busyN := by
  unfold refByteWrite
  cases e.rom with
  | cmd => dsimp only; split_ifs <;> rfl
  | _ => rfl

theorem refTriplet_busy : (refTriplet c b e).busy = e.busyN := by
  unfold refTriplet
  cases e.rom <;> rfl

/-! A poll before a 1-Wire command makes no difference to what the command leaves. -/

theorem refBusReset_afterPoll : refBusReset c (afterPoll e) = refBusReset c e := rfl

theorem refByteWrite_afterPoll : refByteWrite c b (afterPoll e) = refByteWrite c b e := by
  obtain ⟨_, _, _, _, _, _, _, _, _, _, _, _, _, _, rom, _, _⟩ := e
  cases rom <;> rfl

theorem refTriplet_afterPoll : refTriplet c b (afterPoll e) = refTriplet c b e := by
  obtain ⟨_, _, _, _, _, _, _, _, _, _, _, _, _, _, rom, _, _⟩ := e
  cases rom <;> rfl

theorem refTriplet_search (h : e.rom = .search) : (refTriplet c b e).st = statusAfterTriplet c e.st
    (wiredId e.part e.k) (wiredComplement e.part e.k)
    (branchTaken (wiredId e.part e.k) (wiredComplement e.part e.k) (b.getLsbD 7)) := by
  rw [refTriplet, h]

end

theorem presenceFlag_idleStatus {c : ConfigRecord} (hc : StatusBitsApart c) (e : RefEnv) :
    presenceFlag c (idleStatus c (refBusReset c e)) = !(refAttached e).isEmpty := by
  simp [presenceFlag, idleStatus, refBusReset, hc.presence]

theorem idBitFlag_idleStatus {c : ConfigRecord} (hc : StatusBitsApart c) (e : RefEnv) :
    idBitFlag c (idleStatus c e) = idBitFlag c e.st := by
  simp [idBitFlag, idleStatus, hc.idBit]

theorem complementBitFlag_idleStatus {c : ConfigRecord} (hc : StatusBitsApart c) (e : RefEnv) :
    complementBitFlag c (idleStatus c e) = complementBitFlag c e.st := by
  simp [complementBitFlag, idleStatus, hc.complement]

theorem idBitFlag_afterTriplet {c : ConfigRecord} (hc : StatusBitsApart c) (st : Byte) (id cmp taken : Bool) :
    idBitFlag c (statusAfterTriplet c st id cmp taken) = id := by
  simp [idBitFlag, statusAfterTriplet, hc.idBit]

theorem complementBitFlag_afterTriplet {c : ConfigRecord} (hc : StatusBitsApart c) (st : Byte) (id cmp taken : Bool) :
    complementBitFlag c (statusAfterTriplet c st id cmp taken) = cmp := by
  simp [complementBitFlag, statusAfterTriplet, hc.complement]

/-! ### The primitives -/

/-- The record and the environment under which the primitives run: what their proofs use of `configWellFormed`, and
polls that end in time, now and after the next 1-Wire command (`21_reference_environment.md` R69). -/
structure RefPolls (c : ConfigRecord) (e : RefEnv) : Prop where
  codes : codesDistinct c = true
  busy : e.busy < c.pollMax
  busyN : e.busyN < c.pollMax

section
variable {β : Type} {c : ConfigRecord} {e g h : RefEnv}

/-- A poll ends after a 1-Wire command, and after the poll that follows. -/
theorem RefPolls.afterPoll (hp : RefPolls c e) (hg : WireFrame e g) : RefPolls c (afterPoll g) :=
  ⟨hp.codes, Nat.zero_lt_of_lt hp.busy, (hg.busyN ▸ hp.busyN :)⟩

/-- The shape of a primitive: a poll, a 1-Wire command, a poll. -/
theorem RefPolls.between (hp : RefPolls c e) {x : Proc Unit} {k : Byte → Proc β} {b : β}
    (hx : RefRun c (Machine.afterPoll e) x () g) (hg : g.busy = e.busyN)
    (hk : RefRun c (Machine.afterPoll g) (k (idleStatus c g)) b h) :
    RefRun c e (pollUntilIdle >>= fun _ => x >>= fun _ => pollUntilIdle >>= k) b h :=
  (pollUntilIdle_refRun hp.codes hp.busy).bind (hx.bind ((pollUntilIdle_refRun hp.codes (hg ▸ hp.busyN)).bind hk))

theorem busReset_refRun (hp : RefPolls c e) (hs : StatusBitsApart c) :
    RefRun c e busReset (!(refAttached e).isEmpty) (afterPoll (refBusReset c e)) := by
  have hx := cmd0_refRun ((refCommands hp.codes).w1rs (afterPoll e)) (refBusReset_frame c _).ackFrame
  refine RefRun.getConf_bind (hp.between hx rfl ?_)
  rw [refBusReset_afterPoll, presenceFlag_idleStatus hs]
  exact .pure _

theorem writeByte_refRun (hp : RefPolls c e) (b : Byte) :
    RefRun c e (writeByte b) () (afterPoll (refByteWrite c b e)) := by
  have hx : RefRun c (afterPoll e) (cmd1 c.cmd1WWB b) () (refByteWrite c b (afterPoll e)) :=
    cmd1_refRun ((refCommands hp.codes).w1wb _) (refWriteReg_w1wb c b) (refByteWrite_frame c b _).ackFrame
  rw [refByteWrite_afterPoll] at hx
  exact RefRun.getConf_bind (hp.between hx (refByteWrite_busy c b e) (.pure _))

theorem searchTriplet_refRun (hp : RefPolls c e) (hs : StatusBitsApart c) (hrom : e.rom = .search) (dir : Bool) :
    RefRun c e (searchTriplet dir) (wiredId e.part e.k, wiredComplement e.part e.k)
      (afterPoll (refTriplet c (directionByte dir) e)) := by
  have hx : RefRun c (afterPoll e) (cmd1 c.cmd1WT (directionByte dir)) ()
      (refTriplet c (directionByte dir) (afterPoll e)) :=
    cmd1_refRun ((refCommands hp.codes).w1t _) (refWriteReg_w1t c _) (refTriplet_frame c _ _).ackFrame
  rw [refTriplet_afterPoll] at hx
  refine RefRun.getConf_bind (hp.between hx (refTriplet_busy c _ e) ?_)
  rw [idBitFlag_idleStatus hs, complementBitFlag_idleStatus hs, refTriplet_search _ _ _ hrom,
    idBitFlag_afterTriplet hs, complementBitFlag_afterTriplet hs]
  exact .pure _

/-- The byte read into the read-data register is fetched through the read pointer (`41_onewire_bus.md` R134). -/
theorem readByte_refRun (hp : RefPolls c e) (hptr : c.ptrData ≠ c.ptrStatus) :
    RefRun c e readByte (e.feed.headD 0xFF) { afterPoll (refByteRead e) with ptr := .data } := by
  have hset : ∀ f, refSetPointer c c.ptrData f = { f with ptr := .data } := by simp [refSetPointer, refPointer, hptr]
  refine RefRun.getConf_bind (hp.between (g := refByteRead e)
    (cmd0_refRun ((refCommands hp.codes).w1rb _) (refByteRead_frame _).ackFrame) rfl ?_)
  refine (cmd1_refRun (f := { afterPoll (refByteRead e) with ptr := .data }) ((refCommands hp.codes).srp _)
    (fun h => (refWriteReg_srp c _ h).trans (hset _)) ⟨rfl, rfl, rfl, rfl⟩).bind ?_
  exact tRead_refRun ⟨rfl, rfl, rfl, rfl⟩

end

/-! ### Host operations and fragments on the environment -/

theorem RefPolls.of_ready {s : State} {e : RefEnv} (h : RefReady s e) (hc : codesDistinct s.conf = true) :
    RefPolls s.conf e :=
  ⟨hc, h.busyNow, h.busyNext⟩

/-- An operation of `host_prim` in `READY` whose body runs on the environment. -/
theorem RefRun.endPrim {α : Type} {s : State} {e f : RefEnv} {body : Proc α} {v : α} (hb : RefRun s.conf e body v f)
    (hp : BusProc body) (h : OnRef s e) (hm : s.mode = .ready) (value : α → Value) :
    ∃ t, endPrim value (hostPrim [.ready] body s) = t ∧ t.outcome = some (.ok (value v)) ∧ t.mode = .ready ∧
      t.env = .ref f := by
  obtain ⟨t, hrun, -, ht⟩ := hb s rfl h
  refine ⟨_, rfl, ?_⟩
  simp only [hostPrim, hm, List.mem_singleton, if_true, hrun, Machine.endPrim]
  exact ⟨rfl, (hp.busFrame.of_ok hrun).mode.trans hm, ht.env⟩

end Sys2Proof.Machine
end

section
/-! PROOFS. The bridge commands on the reference environment, run as steps of their own: what it takes of each parameter
(`21_reference_environment.md` R62, R64, R65, R68). -/

namespace Sys2Proof.Machine

open Sys2Proof.Safety

/-! ### The record -/

/-- What a well-formed record says of its codes and bit positions. -/
structure RecordParts (c : ConfigRecord) : Prop where
  codes : codesDistinct c = true
  romCodes : c.romMatch ≠ c.romSearch
  pointers : pointersDistinct c = true
  bits : StatusBitsApart c
  channels : c.chcode.toList.Nodup

theorem recordParts {c : ConfigRecord} (h : configWellFormed c = true) : RecordParts c := by
  simp only [configWellFormed, Bool.and_eq_true] at h
  obtain ⟨⟨⟨⟨-, hcodes⟩, hpointers⟩, hbits⟩, hchannels⟩ := h
  have hrom : [c.romMatch, c.romSearch].Nodup := (of_decide_eq_true hcodes).2.2
  exact ⟨hcodes, by simpa using hrom, hpointers, statusBitsApart hbits, of_decide_eq_true hchannels⟩

/-- The register each of the four pointer codes names (`21_reference_environment.md` R64). -/
theorem refPointer_code {c : ConfigRecord} (h : pointersDistinct c = true) :
    refPointer c c.ptrStatus = some .status ∧ refPointer c c.ptrData = some .data ∧
      refPointer c c.ptrChannel = some .channel ∧ refPointer c c.ptrConfig = some .config := by
  have h := of_decide_eq_true h
  simp only [List.nodup_cons, List.mem_cons, List.not_mem_nil, not_or, or_false, not_false_eq_true] at h
  simp only [refPointer]
  grind

/-! ### The bridge commands -/

/-- A fragment that returns where it may run. -/
theorem runFragment_of_ok {p : Proc Unit} {s t : State} (hm : s.mode ≠ .uninit) (hp : p s = .ok () t) :
    runFragment p s = deliver (.ok .none) t := by
  simp only [runFragment, if_neg hm, hp]

theorem runFragment_of_error {p : Proc Unit} {s t : State} {e : Err} (hm : s.mode ≠ .uninit) (hp : p s = .error e t) :
    runFragment p s = deliver (.err e) t := by
  simp only [runFragment, if_neg hm, hp]

/-- Settles O56: the command byte, acknowledged or not. -/
theorem deviceResetOnReferenceEnvironment : Obligations.DeviceResetOnReferenceEnvironment := by
  intro s e hm henv hpend hf
  refine ⟨fun hack haddr => ?_, fun hno => ?_⟩
  · have hrun := cmd0_ref ⟨henv, hack, haddr, hf, hpend⟩ s.conf.cmdDRST
    rw [refCommand, if_pos rfl] at hrun
    exact congrArg Host.Outcome.next (runFragment_of_ok hm hrun)
  · have hacks : refAcks s.addr e = false := by
      rcases hno with hack | haddr
      · simp [refAcks, hack]
      · simp [refAcks, haddr.symm]
    exact congrArg Host.Outcome.next (runFragment_of_error hm (tWrite_ref_nack henv hacks hf s.conf.cmdDRST))

section
variable {s : State} {e : RefEnv} (h : OnRef s e) (hm : s.mode ≠ .uninit)
include h hm

/-- A bridge command with a parameter, run as a step of its own: the environment takes the parameter. -/
theorem runFragment_cmd1_ref {code : Byte} {q : Pending} (hcode : refCommand s.conf code e = { e with pend := q })
    (p : Byte) :
    runFragment (cmd1 code p) s = { s with
      env := .ref (refWriteReg s.conf p { e with pend := q })
      outcome := some (.ok .none), trace := s.trace ++ [.wr s.addr code, .wr s.addr p] } := by
  rw [runFragment_of_ok hm (cmd1_ref h hcode p)]
  rfl

end

theorem wiredId_iff (part : List Identifier) (i : Nat) : wiredId part i = true ↔ ∀ x ∈ part, idBit x i = true := by
  simp [wiredId]

theorem wiredComplement_iff (part : List Identifier) (i : Nat) :
    wiredComplement part i = true ↔ ∀ x ∈ part, idBit x i = false := by
  simp [wiredComplement]

/-- A participant's bit is the branch taken when all share it or it is the direction supplied
(`21_reference_environment.md` R68). -/
theorem idBit_eq_branchTaken {part : List Identifier} {x : Identifier} (hx : x ∈ part) (i : Nat) (dir : Bool) :
    idBit x i = branchTaken (wiredId part i) (wiredComplement part i) dir ↔
      (∀ y ∈ part, idBit y i = idBit x i) ∨ idBit x i = dir := by
  by_cases hall : ∀ y ∈ part, idBit y i = idBit x i
  · have htaken : branchTaken (wiredId part i) (wiredComplement part i) dir = idBit x i := by
      cases hv : idBit x i with
      | true =>
        have hid := (wiredId_iff part i).2 fun y hy => (hall y hy).trans hv
        have hcmp : wiredComplement part i = false :=
          Bool.eq_false_iff.2 fun h => by simpa [hv] using (wiredComplement_iff part i).1 h x hx
        rw [hid, hcmp]
        rfl
      | false =>
        have hcmp := (wiredComplement_iff part i).2 fun y hy => (hall y hy).trans hv
        have hid : wiredId part i = false :=
          Bool.eq_false_iff.2 fun h => by simpa [hv] using (wiredId_iff part i).1 h x hx
        rw [hid, hcmp]
        rfl
    simp only [htaken, true_iff]
    exact .inl hall
  · obtain ⟨y, hy, hne⟩ : ∃ y ∈ part, idBit y i ≠ idBit x i := by simpa using hall
    have hid : wiredId part i = false := Bool.eq_false_iff.2 fun h =>
      hne (((wiredId_iff part i).1 h y hy).trans ((wiredId_iff part i).1 h x hx).symm)
    have hcmp : wiredComplement part i = false := Bool.eq_false_iff.2 fun h =>
      hne (((wiredComplement_iff part i).1 h y hy).trans ((wiredComplement_iff part i).1 h x hx).symm)
    have htaken : branchTaken false false dir = dir := rfl
    rw [hid, hcmp, htaken, or_iff_right hall]

/-- Settles O55: the parameter byte starts the triplet, whose bits the status byte then holds. -/
theorem tripletOnReferenceEnvironment : Obligations.TripletOnReferenceEnvironment := by
  intro s e d hr hc hm hrom
  have h := OnRef.of_ready hr
  have hparts := recordParts hc
  refine ⟨_, refTriplet s.conf d e, congrArg Host.Outcome.next (runFragment_cmd1_ref h hm
    ((refCommands hparts.codes).w1t e) d), rfl, rfl, ?_, refTriplet_busy _ _ _, ?_⟩
  · rw [refWriteReg_w1t _ _ h.noPending]
  · rw [refTriplet_search _ _ _ hrom, idBitFlag_afterTriplet hparts.bits, complementBitFlag_afterTriplet hparts.bits]
    simp only [refTriplet, hrom]
    refine ⟨rfl, trivial, wiredId_iff _ _, wiredComplement_iff _ _, fun x => ?_⟩
    rw [List.mem_filter, beq_iff_eq]
    exact and_congr_right fun hx => idBit_eq_branchTaken hx _ _

/-- `SRP` moves the read pointer to the register its code names, or leaves it (`21_reference_environment.md` R64). -/
theorem refSetPointer_eq (c : ConfigRecord) (p : Byte) (e : RefEnv) :
    refSetPointer c p e = { e with ptr := (refPointer c p).getD e.ptr } := by
  unfold refSetPointer
  cases refPointer c p <;> rfl

theorem refWriteConfig_eq (c : ConfigRecord) (p : Byte) (e : RefEnv) :
    refWriteConfig c p e = { e with
      cfg := if configLegal p then p.extractLsb' 0 4 else e.cfg
      st := if configLegal p then withBit e.st c.stRST false else e.st
      ptr := .config } := by
  unfold refWriteConfig
  split <;> rfl

theorem refSelectChannel_eq (c : ConfigRecord) (p : Byte) (e : RefEnv) :
    refSelectChannel c p e = { e with chan := (refChannelOf c p e).getD e.chan, ptr := .channel } := by
  unfold refSelectChannel
  cases refChannelOf c p e <;> rfl

/-- The channel a code selects (`21_reference_environment.md` R64, `30_encoding.md` R90). -/
theorem refChannelOf_code {c : ConfigRecord} (hc : c.chcode.toList.Nodup) {e : RefEnv} {ch : BitVec 3}
    (hch : ch.toNat < e.nch) : refChannelOf c (channelCode c ch) e = some ch := by
  have hmem : ∀ ch : BitVec 3, ch ∈ (List.range 8).map (BitVec.ofNat 3) := by decide
  unfold refChannelOf
  cases hf : List.find? _ _ with
  | none => simpa [hch] using List.find?_eq_none.1 hf ch (hmem ch)
  | some ch' =>
    have hfound := List.find?_some hf
    have hcode : channelCode c ch' = channelCode c ch := beq_iff_eq.1 (Bool.and_eq_true_iff.1 hfound).2
    have hinj : ch'.toNat = ch.toNat := by
      refine (List.Nodup.getElem_inj_iff hc (hi := by simpa using ch'.isLt) (hj := by simpa using ch.isLt)).1 ?_
      simpa [channelCode, Vector.get] using hcode
    rw [BitVec.eq_of_toNat_eq hinj]

theorem refChannelOf_other {c : ConfigRecord} {p : Byte} {e : RefEnv}
    (h : ∀ ch : BitVec 3, ch.toNat < e.nch → p ≠ channelCode c ch) : refChannelOf c p e = none := by
  refine List.find?_eq_none.2 fun ch _ hch => ?_
  obtain ⟨hlt, hcode⟩ := Bool.and_eq_true_iff.1 hch
  exact h ch (of_decide_eq_true hlt) (beq_iff_eq.1 hcode).symm

theorem channelCode_ofNat (c : ConfigRecord) (k : Fin 8) : channelCode c (BitVec.ofNat 3 k.val) = c.chcode.get k := by
  have hk : (BitVec.ofNat 3 k.val).toFin = k := Fin.ext (Nat.mod_eq_of_lt k.isLt)
  rw [channelCode, hk]

/-- Settles O57: the parameter byte of each of the three commands. -/
theorem parameterCommandsOnReferenceEnvironment : Obligations.ParameterCommandsOnReferenceEnvironment := by
  intro s e p hr hc hm
  have h := OnRef.of_ready hr
  have hparts := recordParts hc
  have hcommands := refCommands hparts.codes
  have srp := runFragment_cmd1_ref h hm (hcommands.srp e) p
  have wcfg := runFragment_cmd1_ref h hm (hcommands.wcfg e) p
  have chsl := runFragment_cmd1_ref h hm (hcommands.chsl e) p
  rw [refWriteReg_srp _ _ h.noPending, refSetPointer_eq] at srp
  rw [refWriteReg_wcfg _ _ h.noPending, refWriteConfig_eq] at wcfg
  rw [refWriteReg_chsl _ _ h.noPending, refSelectChannel_eq] at chsl
  refine ⟨⟨_, congrArg Host.Outcome.next srp, ?_⟩, ⟨_, _, congrArg Host.Outcome.next wcfg, ?_, ?_⟩,
    _, congrArg Host.Outcome.next chsl, ?_, ?_⟩
  · obtain ⟨hstatus, hdata, hchannel, hconfig⟩ := refPointer_code hparts.pointers
    refine ⟨?_, ?_, ?_, ?_, fun hother => ?_⟩
    · rintro rfl
      rw [hstatus, Option.getD_some]
    · rintro rfl
      rw [hdata, Option.getD_some]
    · rintro rfl
      rw [hchannel, Option.getD_some]
    · rintro rfl
      rw [hconfig, Option.getD_some]
    · simp only [List.mem_cons, List.not_mem_nil, or_false, not_or] at hother
      simp [refPointer, hother]
  · intro hlegal
    simp [configLegal, hlegal]
  · intro hlegal
    simp [configLegal, hlegal]
  · rintro k hk rfl
    rw [← channelCode_ofNat, refChannelOf_code hparts.channels ((Nat.mod_le _ _).trans_lt hk), Option.getD_some]
  · intro hother
    rw [refChannelOf_other fun ch hch => hother ch.toFin hch, Option.getD_none]

end Sys2Proof.Machine
end

section
/-! PROOFS. The host operations of the OneWireBus and `INIT` on the reference environment
(`21_reference_environment.md` R63 to R67, R70). -/

namespace Sys2Proof.Machine

open Sys2Proof.Safety

/-! ### `OWRESET`, `OWWRITE`, `OWREAD` -/

theorem owreset_ref {s : State} {e : RefEnv} (hr : RefReady s e) (hc : configWellFormed s.conf = true)
    (hm : s.mode ≠ .uninit) :
    ∃ t, exec .owreset s = .next t ∧ t.outcome = some (.ok (.bit (!(refAttached e).isEmpty))) ∧ t.mode = .ready ∧
      t.env = .ref (afterPoll (refBusReset s.conf e)) := by
  have hparts := recordParts hc
  obtain ⟨t, hrun, -, ht⟩ := busReset_refRun (.of_ready hr hparts.codes) hparts.bits s rfl (OnRef.of_ready hr)
  have hmem : s.mode ∈ [Mode.ready, .dirty] := by
    cases h : s.mode <;> simp_all
  refine ⟨deliver (.ok (.bit (!(refAttached e).isEmpty))) (recover t), ?_, rfl, rfl, ht.env⟩
  change execOwreset s = _
  rw [execOwreset, hostPrim, if_pos hmem, hrun]

/-- In a Match ROM those stay whose next identifier byte is the one written, and the eighth byte ends it
(`21_reference_environment.md` R67). -/
theorem refByteWrite_matching (c : ConfigRecord) (b : Byte) {e : RefEnv} (h : e.rom = .matching) :
    (∀ x, x ∈ (refByteWrite c b e).part ↔ x ∈ e.part ∧ idByte x e.k = b) ∧ (refByteWrite c b e).k = e.k + 1 ∧
      (refByteWrite c b e).rom = if e.k + 1 = 8 then .func else .matching := by
  rw [refByteWrite, h]
  exact ⟨fun x => by simp, rfl, rfl⟩

/-- After a reset with presence the byte is a ROM command, or a function command (`21_reference_environment.md` R67). -/
theorem refByteWrite_cmd (c : ConfigRecord) (b : Byte) {e : RefEnv} (h : e.rom = .cmd) :
    refByteWrite c b e =
      if b = c.romSearch then { refStart1W e with rom := .search, k := 0 }
      else if b = c.romMatch then { refStart1W e with rom := .matching, k := 0 }
      else { refStart1W e with rom := .func } := by
  rw [refByteWrite, h]

theorem refByteWrite_other (c : ConfigRecord) (b : Byte) {e : RefEnv}
    (h : e.rom = .idle ∨ e.rom = .search ∨ e.rom = .func) : refByteWrite c b e = refStart1W e := by
  rcases h with h | h | h <;> rw [refByteWrite, h]

/-- The read-data register and the feed are not touched by a byte write. -/
theorem refByteWrite_feed (c : ConfigRecord) (b : Byte) (e : RefEnv) :
    (refByteWrite c b e).rd = e.rd ∧ (refByteWrite c b e).feed = e.feed := by
  unfold refByteWrite
  cases e.rom with
  | cmd => dsimp only; split_ifs <;> exact ⟨rfl, rfl⟩
  | _ => exact ⟨rfl, rfl⟩

theorem owwrite_ref {s : State} {e : RefEnv} (hr : RefReady s e) (hc : configWellFormed s.conf = true)
    (hm : s.mode = .ready) (b : Byte) :
    ∃ t, exec (.owwrite b) s = .next t ∧ t.outcome = some (.ok .none) ∧ t.mode = .ready ∧
      t.env = .ref (afterPoll (refByteWrite s.conf b e)) := by
  have hrun := writeByte_refRun (.of_ready hr (recordParts hc).codes) b
  obtain ⟨t, ht, h⟩ := hrun.endPrim (writeByte_busProc b) (OnRef.of_ready hr) hm fun _ => Value.none
  exact ⟨t, congrArg Host.Outcome.next ht, h⟩

theorem ptrData_ne_ptrStatus {c : ConfigRecord} (h : pointersDistinct c = true) : c.ptrData ≠ c.ptrStatus := by
  intro heq
  obtain ⟨hstatus, hdata, -, -⟩ := refPointer_code h
  rw [heq, hstatus] at hdata
  cases hdata

/-- Settles O53: each of the three operations runs its primitive on the environment. -/
theorem oneWirePrimitivesOnReferenceEnvironment : Obligations.OneWirePrimitivesOnReferenceEnvironment := by
  refine ⟨fun s e hr hc hm => ?_, fun s e b hr hc hm => ?_, fun s e hr hc hm => ?_⟩
  · obtain ⟨t, ht, hout, hmode, henv⟩ := owreset_ref hr hc hm
    exact ⟨t, _, ht, hout, hmode, henv, rfl, rfl⟩
  · obtain ⟨t, ht, hout, hmode, henv⟩ := owwrite_ref hr hc hm b
    have hrom := (recordParts hc).romCodes
    obtain ⟨hrd, hfeed⟩ := refByteWrite_feed s.conf b e
    refine ⟨t, _, ht, hout, hmode, henv, rfl, rfl, hrd, hfeed, (refByteWrite_frame _ _ _).dev, fun hcmd => ?_,
      fun hmatch => ?_, fun hother => ?_⟩
    · simp only [afterPoll, refByteWrite_cmd _ _ hcmd]
      by_cases hs : b = s.conf.romSearch
      · simp [hs, refStart1W, hrom.symm]
      · by_cases hmt : b = s.conf.romMatch <;> simp [hs, hmt, hrom, refStart1W]
    · obtain ⟨hpart, hk, hromAfter⟩ := refByteWrite_matching s.conf b hmatch
      have heighth : e.k + 1 = 8 ↔ e.k = 7 := by omega
      simp only [afterPoll, hromAfter, heighth]
      refine ⟨hpart, hk, ?_⟩
      by_cases hlast : e.k = 7 <;> simp [hlast]
    · rw [refByteWrite_other _ _ hother]
      exact ⟨rfl, rfl, rfl⟩
  · have hparts := recordParts hc
    have hrun := readByte_refRun (.of_ready hr hparts.codes) (ptrData_ne_ptrStatus hparts.pointers)
    obtain ⟨t, ht, hout, hmode, henv⟩ := hrun.endPrim readByte_busProc (OnRef.of_ready hr) hm .byte
    refine ⟨t, _, _, congrArg Host.Outcome.next ht, hout, hmode, henv, ?_, ?_, rfl, rfl, rfl, rfl, rfl, rfl, rfl⟩
    · intro b bs hfeed
      simp [afterPoll, refByteRead, hfeed]
    · intro hfeed
      simp [afterPoll, refByteRead, hfeed]

/-! ### `MATCHROM` -/

theorem toList_eq_map_idByte (x : Identifier) : x.toList = (List.range' 0 8).map (idByte x) := by
  refine List.ext_getElem (by simp) fun i hi _ => ?_
  simp only [Vector.length_toList] at hi
  simp [idByte_eq_getD, hi]

/-- In a Match ROM, the bytes up to the eighth leave those whose identifier continues with them. -/
theorem writeBytes_matching {c : ConfigRecord} (bs : List Byte) : ∀ {e : RefEnv}, RefPolls c e →
    e.rom = (if e.k = 8 then .func else .matching) → e.k + bs.length = 8 →
    ∃ f, RefRun c e (writeBytes bs) () f ∧ f.rom = .func ∧
      ∀ x, x ∈ f.part ↔ x ∈ e.part ∧ (List.range' e.k bs.length).map (idByte x) = bs := by
  induction bs with
  | nil =>
    intro e hp hrom hk
    exact ⟨e, .pure _, by simpa [show e.k = 8 from hk] using hrom, by simp⟩
  | cons b bs ih =>
    intro e hp hrom hk
    rw [List.length_cons] at hk
    have hmatch : e.rom = .matching := hrom.trans (if_neg (by omega))
    obtain ⟨hpart, hk', hrom'⟩ := refByteWrite_matching c b hmatch
    obtain ⟨f, hrun, hfunc, hf⟩ := ih (hp.afterPoll (refByteWrite_frame c b e)) (by rw [← hk'] at hrom'; exact hrom')
      (by simp only [afterPoll]; omega)
    refine ⟨f, (writeByte_refRun hp b).bind hrun, hfunc, fun x => ?_⟩
    rw [hf, List.length_cons, List.range'_succ, List.map_cons, List.cons.injEq, ← and_assoc]
    simp only [afterPoll, hpart, hk']

/-- Settles O54: the command byte starts the Match ROM, and its eight bytes leave the device that has them all. -/
theorem matchromOnReferenceEnvironment : Obligations.MatchromOnReferenceEnvironment := by
  intro s e id hr hc hm hattached
  have hparts := recordParts hc
  have hp : RefPolls s.conf e := .of_ready hr hparts.codes
  have hpresent : (!(refAttached e).isEmpty) = true := by simpa using hattached
  have hreset := busReset_refRun hp hparts.bits
  have hp₁ := hp.afterPoll (refBusReset_frame s.conf e)
  have hcmd : (afterPoll (refBusReset s.conf e)).rom = .cmd := by simp [afterPoll, refBusReset, hattached]
  have hwrite := writeByte_refRun hp₁ s.conf.romMatch
  have hp₂ := hp₁.afterPoll (refByteWrite_frame s.conf s.conf.romMatch _)
  rw [refByteWrite_cmd _ _ hcmd, if_neg hparts.romCodes, if_pos rfl] at hwrite hp₂
  obtain ⟨f, hbytes, hfunc, hf⟩ := writeBytes_matching id.toList hp₂ rfl (by simp [afterPoll])
  have hrun : RefRun s.conf e (matchRom id) true f := by
    refine hreset.bind ?_
    rw [hpresent]
    exact (RefRun.getConf_bind (hwrite.bind hbytes)).bind (.pure true)
  obtain ⟨t, ht, hout, hmode, henv⟩ := hrun.endPrim (matchRom_busProc id) (OnRef.of_ready hr) hm .bit
  refine ⟨t, f, congrArg Host.Outcome.next ht, hout, hmode, henv, hfunc, fun x => ?_⟩
  refine (hf x).trans (and_congr_right fun _ => ?_)
  rw [Vector.length_toList]
  simp only [afterPoll]
  rw [← toList_eq_map_idByte, Vector.toList_inj]

/-! ### `INIT` -/

section
variable {c : ConfigRecord} {e : RefEnv}

theorem selchSequence_refRun (hc : RecordParts c) {ch : BitVec 3} (hch : ch.toNat < e.nch) :
    RefRun c e (selchSequence ch) () { e with chan := ch, ptr := .channel } := by
  have hselect : refSelectChannel c (channelCode c ch) e = { e with chan := ch, ptr := .channel } := by
    rw [refSelectChannel_eq, refChannelOf_code hc.channels hch, Option.getD_some]
  refine RefRun.getConf_bind ((cmd1_refRun ((refCommands hc.codes).chsl e)
    (fun h => (refWriteReg_chsl c _ h).trans hselect) ⟨rfl, rfl, rfl, rfl⟩).bind
    ((tRead_refRun ⟨rfl, rfl, rfl, rfl⟩).bind ?_))
  simp only [refReadReg, ne_eq, not_true, if_false]
  exact .pure ()

/-- The channel selection of `INIT` (`40_bridge_controller.md` R108): on `SINGLE` there is none, and the bridge has the
channel it had. -/
theorem initSelect_refRun (hc : RecordParts c) (hb : e.busy < c.pollMax) {ch : BitVec 3}
    (hmulti : c.variant = .multi8 → ch.toNat < e.nch) (hsingle : c.variant = .single → e.chan = ch) (f : Byte) :
    ∃ g, RefRun c e (initSelect c ch f) () g ∧ g.chan = ch ∧ g.cfg = e.cfg ∧ g.dev = e.dev := by
  have hcfg : RefRun c e (modify fun t => t.setCfg f) () e := .modify (fun _ => rfl) (fun _ => rfl) fun _ => rfl
  by_cases hv : c.variant = .multi8
  · refine ⟨{ afterPoll e with chan := ch, ptr := .channel }, hcfg.bind ?_, rfl, rfl, rfl⟩
    rw [if_pos hv]
    exact (pollUntilIdle_refRun hc.codes hb).bind (selchSequence_refRun (e := afterPoll e) hc (hmulti hv))
  · refine ⟨e, hcfg.bind ?_, hsingle ?_, rfl, rfl⟩
    · rw [if_neg hv]
      exact .pure ()
    · cases h : c.variant with
      | single => rfl
      | multi8 => exact absurd h hv

/-- `INIT` on an environment of a record whose status pattern and configuration bytes are those of the bridge chip. -/
theorem initBody_refRun (hc : RecordParts c) (hpoll : 0 < c.pollMax)
    (hstatus : initStatusOk c (withBit (statusAfterDeviceReset c) c.st1WB false) = true)
    (hlegal : configLegal c.cfgInitW = true) (hback : 0#4 ++ c.cfgInitW.extractLsb' 0 4 = c.cfgInit) {ch : BitVec 3}
    (hmulti : c.variant = .multi8 → ch.toNat < e.nch) (hsingle : c.variant = .single → 0 = ch) :
    ∃ g, RefRun c e (initBody ch) () g ∧ g.chan = ch ∧ g.cfg = c.cfgInitW.extractLsb' 0 4 ∧ g.dev = e.dev := by
  have htake : refWriteConfig c c.cfgInitW (refDeviceReset c e) = { refDeviceReset c e with
      cfg := c.cfgInitW.extractLsb' 0 4, st := withBit (statusAfterDeviceReset c) c.stRST false, ptr := .config } := by
    rw [refWriteConfig, if_pos hlegal]
    rfl
  have hreset := cmd0_refRun ((refCommands hc.codes).drst e) ⟨rfl, rfl, rfl, rfl⟩
  have hread : RefRun c (refDeviceReset c e) tRead (withBit (statusAfterDeviceReset c) c.st1WB false)
      (refDeviceReset c e) := tRead_refRun ⟨rfl, rfl, rfl, rfl⟩
  have hconfig := cmd1_refRun (p := c.cfgInitW) ((refCommands hc.codes).wcfg (refDeviceReset c e))
    (fun h => (refWriteReg_wcfg c _ h).trans htake) ⟨rfl, rfl, rfl, rfl⟩
  obtain ⟨g, hselect, hchan, hcfg, hdev⟩ := initSelect_refRun (e := { refDeviceReset c e with
    cfg := c.cfgInitW.extractLsb' 0 4, st := withBit (statusAfterDeviceReset c) c.stRST false, ptr := .config })
    hc hpoll hmulti hsingle (0#4 ++ c.cfgInitW.extractLsb' 0 4)
  refine ⟨g, ?_, hchan, hcfg, hdev⟩
  rw [initBody_eq]
  refine RefRun.getConf_bind (hreset.bind (hread.bind ?_))
  rw [if_neg (by simp [hstatus])]
  refine hconfig.bind ((tRead_refRun ⟨rfl, rfl, rfl, rfl⟩).bind ?_)
  exact (if_neg (not_not.2 hback)).symm ▸ hselect

end

/-- The default record has the codes, the status pattern and the configuration bytes of the bridge chip
(`00_scope.md` R7). -/
theorem defaultConf_parts (v : Variant) (n : Nat) : RecordParts (defaultConf v n) where
  codes := rfl
  romCodes := show (defaultConf .single 0).romMatch ≠ (defaultConf .single 0).romSearch by decide
  pointers := rfl
  bits := statusBitsApart rfl
  channels := show (defaultConf .single 0).chcode.toList.Nodup by decide

theorem defaultConf_status (v : Variant) (n : Nat) : initStatusOk (defaultConf v n)
    (withBit (statusAfterDeviceReset (defaultConf v n)) (defaultConf v n).st1WB false) = true := by
  simp only [initStatusOk, statusAfterDeviceReset, defaultConf]
  decide

theorem defaultConf_config (v : Variant) (n : Nat) : configLegal (defaultConf v n).cfgInitW = true ∧
    0#4 ++ (defaultConf v n).cfgInitW.extractLsb' 0 4 = (defaultConf v n).cfgInit ∧
    (defaultConf v n).cfgInitW.extractLsb' 0 4 = 0x1 := by
  simp only [defaultConf]
  decide

/-- A legal channel operand is the number in `CH`. -/
theorem channelBits_toNat {c : ConfigRecord} {ch : Byte} (h : ch.toNat < nch c) :
    (channelBits ch).toNat = ch.toNat := by
  have hlt : ch.toNat < 8 := h.trans_le (by unfold nch; split <;> decide)
  rw [channelBits, BitVec.toNat_ofNat, Nat.mod_eq_of_lt hlt]

/-- Settles O52: the body of `INIT` runs on the environment with the default record. -/
theorem initOnReferenceEnvironment : Obligations.InitOnReferenceEnvironment := by
  intro s e v n addr ch hconf hn henv hack haddr hf hpend hnch hlegal hch
  have hlegal : addr.toNat < 2 ^ s.conf.addrW := by rw [hconf]; exact hlegal
  have hoperands : initOperandsLegal s.conf addr ch = true := by
    simp [initOperandsLegal, addrLegal, channelLegal, hlegal, hch]
  have hbits : addrBits s.conf addr = addr := by
    rw [addrBits, Nat.mod_eq_of_lt hlegal, BitVec.ofNat_toNat, BitVec.setWidth_eq]
  have hchannel := channelBits_toNat hch
  obtain ⟨hconfig, hback, hflags⟩ := defaultConf_config v n
  obtain ⟨g, hrun, hchan, hcfg, hdev⟩ := initBody_refRun (e := e) (ch := channelBits ch) (defaultConf_parts v n) hn
    (defaultConf_status v n) hconfig hback
    (fun hv => by rw [hnch hv]; exact (channelBits ch).isLt)
    (fun hv => by
      subst hv
      rw [hconf] at hch
      refine (BitVec.eq_of_toNat_eq ?_).symm
      exact hchannel.trans (Nat.lt_one_iff.1 hch))
  obtain ⟨t, hbody, -, ht⟩ := hrun ((s.setMode .uninit).setAddr (addrBits s.conf addr)) hconf
    ⟨henv, hack, haddr.trans hbits.symm, hf, hpend⟩
  refine ⟨deliver (.ok .none) (recover (t.setCh (channelBits ch))), g, ?_, rfl, rfl, ?_, hchannel, ?_, ht.env,
    hcfg.trans hflags, hchan, hdev⟩
  · change execInit addr ch s = _
    rw [execInit, if_pos hoperands, initAccepted, hbody]
  · exact ((initBody_keeps _).of_ok hbody).addr.trans hbits
  · refine (initBody_ok_cfg hbody).trans ?_
    simp only [State.setAddr_conf, State.setMode_conf, hconf]
    rfl

end Sys2Proof.Machine
end

section
/-! PROOFS. The walk of a search pass through a fixed set of identifiers (`42_rom_search.md` R153, R154, R160), apart
from the machine: where it leads, and which identifiers it has passed. -/

namespace Sys2Proof.Machine

open Sys2Proof.Safety

/-! ### The order of identifiers -/

/-- The identifiers share the bits below position `p`. -/
def Agree (p : Nat) (x y : Identifier) : Prop := ∀ i < p, idBit x i = idBit y i

theorem Agree.symm {p : Nat} {x y : Identifier} (h : Agree p x y) : Agree p y x := fun i hi => (h i hi).symm

theorem Agree.trans {p : Nat} {x y z : Identifier} (h : Agree p x y) (k : Agree p y z) : Agree p x z :=
  fun i hi => (h i hi).trans (k i hi)

theorem Agree.mono {p q : Nat} {x y : Identifier} (h : Agree p x y) (hq : q ≤ p) : Agree q x y :=
  fun i hi => h i (hi.trans_le hq)

theorem agree_succ {p : Nat} {x y : Identifier} : Agree (p + 1) x y ↔ Agree p x y ∧ idBit x p = idBit y p :=
  Nat.forall_lt_succ_right

/-- Taking a bit at position `p` leaves the bits below it. -/
theorem agree_withIdBit {p : Nat} (hp : p < 64) {x y : Identifier} {v : Bool} :
    Agree (p + 1) x (withIdBit y p v) ↔ Agree p x y ∧ idBit x p = v := by
  have hbelow : Agree p (withIdBit y p v) y := fun i hi => by rw [idBit_withIdBit y hp, if_neg hi.ne]
  rw [agree_succ, idBit_withIdBit y hp, if_pos rfl]
  exact and_congr_left fun _ => ⟨fun h => h.trans hbelow, fun h => h.trans hbelow.symm⟩

/-- Two identifiers part at a first position. -/
theorem exists_parting {x y : Identifier} (h : x ≠ y) : ∃ q < 64, Agree q x y ∧ idBit x q ≠ idBit y q := by
  have hex : ∃ q, q < 64 ∧ idBit x q ≠ idBit y q := by
    by_contra hno
    exact h (identifier_ext_bits fun i hi => by_contra fun hne => hno ⟨i, hi, hne⟩)
  obtain ⟨hlt, hne⟩ := Nat.find_spec hex
  exact ⟨_, hlt, fun i hi => by_contra fun hi' => Nat.find_min hex hi ⟨hi.trans hlt, hi'⟩, hne⟩

theorem idBefore_irrefl (x : Identifier) : ¬IdBefore x x := by
  rintro ⟨q, -, -, h0, h1⟩
  rw [h0] at h1
  cases h1

theorem idBefore_trans {x y z : Identifier} : IdBefore x y → IdBefore y z → IdBefore x z := by
  rintro ⟨q, hq, hxy, hx, hy⟩ ⟨r, hr, hyz, hy', hz⟩
  rcases lt_trichotomy q r with h | h | h
  · exact ⟨q, hq, Agree.trans hxy (Agree.mono hyz h.le), hx, hyz q h ▸ hy⟩
  · subst h
    rw [hy] at hy'
    cases hy'
  · exact ⟨r, hr, Agree.trans (Agree.mono hxy h.le) hyz, (hxy r h).trans hy', hz⟩

theorem idBefore_total {x y : Identifier} (h : x ≠ y) : IdBefore x y ∨ IdBefore y x := by
  obtain ⟨q, hq, hagree, hne⟩ := exists_parting h
  cases hx : idBit x q with
  | false => exact .inl ⟨q, hq, hagree, hx, by simpa [hx] using hne⟩
  | true => exact .inr ⟨q, hq, hagree.symm, by simpa [hx] using hne, hx⟩

/-! ### What a pass leaves -/

section
variable (S : List Identifier)

/-- A member of `S` shares the bits of `x` below `p` and has 1 where `x` has 0. -/
def Branches (x : Identifier) (p : Nat) : Prop :=
  idBit x p = false ∧ ∃ y ∈ S, Agree p y x ∧ idBit y p = true

/-- `ld` is the highest of the positions below `n` at which `S` branches off `x`, or -1 (`42_rom_search.md` R157). -/
structure LastBranch (n : Nat) (x : Identifier) (ld : Int) : Prop where
  branch : ld = -1 ∨ ∃ p : Nat, p < n ∧ ld = p ∧ Branches S x p
  above : ∀ q : Nat, q < n → ld < q → ¬Branches S x q

/-- Below `n`, wherever members of `S` part, `x` has the direction supplied (`42_rom_search.md` R154). -/
def Follows (dir : Nat → Bool) (n : Nat) (x : Identifier) : Prop :=
  ∀ q < n, ∀ y ∈ S, Agree q y x → idBit y q ≠ idBit x q → idBit x q = dir q

/-- A pass before position `p`: the participants are the members that share the bits assembled, and all of them
followed the directions and have the last discrepancy recorded. -/
structure Walk (dir : Nat → Bool) (p : Nat) (newLd : Int) (cand : Identifier) (part : List Identifier) : Prop where
  mem : ∀ x, x ∈ part ↔ x ∈ S ∧ Agree p x cand
  nonempty : part ≠ []
  follows : ∀ x ∈ part, Follows S dir p x
  last : ∀ x ∈ part, LastBranch S p x newLd

end

section
variable {S : List Identifier}

theorem LastBranch.succ {p : Nat} {x : Identifier} {ld : Int} (h : LastBranch S p x ld) (hb : ¬Branches S x p) :
    LastBranch S (p + 1) x ld where
  branch := h.branch.imp_right fun ⟨q, hq, hld, hbranch⟩ => ⟨q, hq.trans p.lt_succ_self, hld, hbranch⟩
  above := Nat.forall_lt_succ_right.2 ⟨h.above, fun _ => hb⟩

/-- The three answers a triplet can get from participants (`42_rom_search.md` R154). -/
theorem wired_cases {part : List Identifier} (h : part ≠ []) (p : Nat) :
    (wiredId part p = false ∧ wiredComplement part p = false ∧ ∀ v, ∃ y ∈ part, idBit y p = v) ∨
      ∃ v, wiredId part p = v ∧ wiredComplement part p = !v ∧ ∀ y ∈ part, idBit y p = v := by
  obtain ⟨x, hx⟩ := List.exists_mem_of_ne_nil part h
  by_cases hid : wiredId part p = true
  · have hone := (wiredId_iff part p).1 hid
    refine .inr ⟨true, hid, Bool.eq_false_iff.2 fun hcmp => ?_, hone⟩
    simpa [hone x hx] using (wiredComplement_iff part p).1 hcmp x hx
  by_cases hcmp : wiredComplement part p = true
  · exact .inr ⟨false, Bool.eq_false_iff.2 hid, hcmp, (wiredComplement_iff part p).1 hcmp⟩
  refine .inl ⟨Bool.eq_false_iff.2 hid, Bool.eq_false_iff.2 hcmp, fun v => ?_⟩
  cases v with
  | false => simpa [wiredId] using hid
  | true => simpa [wiredComplement] using hcmp

/-- A participant answers: the two bits are not both 1. -/
theorem wired_not_both {part : List Identifier} (h : part ≠ []) (p : Nat) :
    (wiredId part p && wiredComplement part p) = false := by
  rcases wired_cases h p with ⟨hid, -, -⟩ | ⟨v, hid, hcmp, -⟩
  · rw [hid, Bool.false_and]
  · rw [hid, hcmp, Bool.and_not_self]

/-- The environment takes the branch that the block takes, where the two bits are not both 1 (`42_rom_search.md` R154,
`21_reference_environment.md` R68). -/
theorem branchTaken_eq_searchBitTaken {idb cmp : Bool} (h : (idb && cmp) = false) (dir : Bool) :
    branchTaken idb cmp dir = searchBitTaken idb cmp dir := by
  revert h
  cases idb <;> cases cmp <;> simp [branchTaken, searchBitTaken]

theorem Walk.start (hS : S ≠ []) (dir : Nat → Bool) (cand : Identifier) : Walk S dir 0 (-1) cand S where
  mem := fun _ => (and_iff_left fun _ hi => absurd hi (Nat.not_lt_zero _)).symm
  nonempty := hS
  follows := fun _ _ _ hq => absurd hq (Nat.not_lt_zero _)
  last := fun _ _ => ⟨.inl rfl, fun _ hq => absurd hq (Nat.not_lt_zero _)⟩

/-- Two participants share the bits assembled. -/
theorem Walk.agree {dir : Nat → Bool} {p : Nat} {newLd : Int} {cand : Identifier} {part : List Identifier}
    (h : Walk S dir p newLd cand part) {x y : Identifier} (hx : x ∈ part) (hy : y ∈ part) : Agree p y x :=
  ((h.mem y).1 hy).2.trans ((h.mem x).1 hx).2.symm

/-- A member of `S` that shares the bits of a participant is one. -/
theorem Walk.mem_of_agree {dir : Nat → Bool} {p : Nat} {newLd : Int} {cand : Identifier} {part : List Identifier}
    (h : Walk S dir p newLd cand part) {x y : Identifier} (hx : x ∈ part) (hy : y ∈ S) (hyx : Agree p y x) :
    y ∈ part :=
  (h.mem y).2 ⟨hy, hyx.trans ((h.mem x).1 hx).2⟩

/-- The candidate a walk ends with is a member of `S`. -/
theorem Walk.finish {dir : Nat → Bool} {newLd : Int} {cand : Identifier} {part : List Identifier}
    (h : Walk S dir 64 newLd cand part) : cand ∈ S ∧ Follows S dir 64 cand ∧ LastBranch S 64 cand newLd := by
  obtain ⟨x, hx⟩ := List.exists_mem_of_ne_nil part h.nonempty
  obtain ⟨hxS, hagree⟩ := (h.mem x).1 hx
  obtain rfl := identifier_ext_bits hagree
  exact ⟨hxS, h.follows x hx, h.last x hx⟩

/-- One position of a walk (`42_rom_search.md` R153, R154). -/
theorem Walk.step {dir : Nat → Bool} {p : Nat} (hp : p < 64) {newLd : Int} {cand : Identifier} {part : List Identifier}
    (h : Walk S dir p newLd cand part) {idb cmp : Bool} (hid : wiredId part p = idb)
    (hcmp : wiredComplement part p = cmp) :
    Walk S dir (p + 1) (searchNewLd p idb cmp (dir p) newLd) (withIdBit cand p (searchBitTaken idb cmp (dir p)))
      (part.filter fun x => idBit x p == searchBitTaken idb cmp (dir p)) := by
  subst hid hcmp
  have hmem : ∀ v x, x ∈ (part.filter fun x => idBit x p == v) ↔ x ∈ part ∧ idBit x p = v := by simp
  have hmem' : ∀ v x, x ∈ (part.filter fun x => idBit x p == v) ↔ x ∈ S ∧ Agree (p + 1) x (withIdBit cand p v) := by
    intro v x
    rw [hmem, agree_withIdBit hp, h.mem, and_assoc]
  rcases wired_cases h.nonempty p with ⟨hid, hcmp, hboth⟩ | ⟨v, hid, hcmp, hall⟩
  · have htaken : searchBitTaken false false (dir p) = dir p := rfl
    rw [hid, hcmp, htaken]
    refine ⟨hmem' _, ?_, fun x hx => ?_, fun x hx => ?_⟩
    · obtain ⟨y, hy, hbit⟩ := hboth (dir p)
      exact List.ne_nil_of_mem ((hmem _ y).2 ⟨hy, hbit⟩)
    · obtain ⟨hx, hbit⟩ := (hmem _ x).1 hx
      exact Nat.forall_lt_succ_right.2 ⟨h.follows x hx, fun _ _ _ _ => hbit⟩
    · obtain ⟨hx, hbit⟩ := (hmem _ x).1 hx
      cases hdir : dir p with
      | true =>
        refine (h.last x hx).succ fun hb => ?_
        rw [hb.1, hdir] at hbit
        cases hbit
      | false =>
        obtain ⟨y, hy, hy1⟩ := hboth true
        exact ⟨.inr ⟨p, p.lt_succ_self, rfl, hbit.trans hdir, y, ((h.mem y).1 hy).1, h.agree hx hy, hy1⟩,
          fun q hq hpq => absurd (Int.ofNat_lt.1 hpq) (by omega)⟩
  · have htaken : searchBitTaken v (!v) (dir p) = v := by cases v <;> rfl
    have hld : searchNewLd p v (!v) (dir p) newLd = newLd := by cases v <;> rfl
    rw [hid, hcmp, htaken, hld]
    refine ⟨hmem' _, ?_, fun x hx => ?_, fun x hx => ?_⟩
    · obtain ⟨y, hy⟩ := List.exists_mem_of_ne_nil part h.nonempty
      exact List.ne_nil_of_mem ((hmem _ y).2 ⟨hy, hall y hy⟩)
    · obtain ⟨hx, hbit⟩ := (hmem _ x).1 hx
      refine Nat.forall_lt_succ_right.2 ⟨h.follows x hx, fun y hy hyx hne => absurd ?_ hne⟩
      rw [hall y (h.mem_of_agree hx hy hyx), hbit]
    · obtain ⟨hx, hbit⟩ := (hmem _ x).1 hx
      refine (h.last x hx).succ fun ⟨h0, y, hy, hyx, h1⟩ => ?_
      rw [hall y (h.mem_of_agree hx hy hyx)] at h1
      rw [h1, h0] at hbit
      cases hbit

/-! ### Which member a pass leads to -/

theorem searchDirection_below {p : Nat} {ld : Int} (h : p < ld) (cand : Identifier) :
    searchDirection p ld cand = idBit cand p := if_pos h

theorem searchDirection_at (p : Nat) (cand : Identifier) : searchDirection p p cand = true := by
  simp [searchDirection]

theorem searchDirection_above {p : Nat} {ld : Int} (h : ld < p) (cand : Identifier) :
    searchDirection p ld cand = false := by
  rw [searchDirection, if_neg h.le.not_gt, decide_eq_false h.ne']

/-- `x` is the member of `S` next after those that are `old`, in the order of `42_rom_search.md` R160. -/
structure NextMember (S : List Identifier) (old : Identifier → Prop) (x : Identifier) : Prop where
  mem : x ∈ S
  after : ∀ y ∈ S, old y → IdBefore y x
  first : ∀ y ∈ S, ¬old y → y = x ∨ IdBefore x y

/-- Where every direction supplied from `n` on is 0, a member that shares the bits below is the same or comes after. -/
theorem Follows.before {dir : Nat → Bool} {x y : Identifier} (h : Follows S dir 64 x) (hy : y ∈ S) {n : Nat}
    (hdir : ∀ q, n ≤ q → dir q = false) (hyx : Agree n y x) : y = x ∨ IdBefore x y := by
  by_cases heq : y = x
  · exact .inl heq
  obtain ⟨q, hq, hagree, hne⟩ := exists_parting heq
  have hnq : n ≤ q := by_contra fun hlt => hne (hyx q (by omega))
  have hx : idBit x q = false := (h q hq y hy hagree hne).trans (hdir q hnq)
  exact .inr ⟨q, hq, hagree.symm, hx, by simpa [hx] using hne⟩

/-- The first pass supplies 0 everywhere, and leads to the first member (`42_rom_search.md` R153, R160). -/
theorem nextMember_first {x : Identifier} (hx : x ∈ S) {cand : Identifier}
    (h : Follows S (fun q => searchDirection q (-1) cand) 64 x) : NextMember S (fun _ => False) x where
  mem := hx
  after := fun _ _ => False.elim
  first := fun y hy _ => h.before hy (n := 0) (fun q _ => searchDirection_above (by omega) cand)
    fun _ hi => absurd hi (Nat.not_lt_zero _)

/-- A later pass leads to the member next after the one of the pass before it (`42_rom_search.md` R153, R160). -/
theorem nextMember_later {x cand : Identifier} {ld : Int} (hx : x ∈ S) (hcand : cand ∈ S)
    (hlast : LastBranch S 64 cand ld) (hld : 0 ≤ ld) (h : Follows S (fun q => searchDirection q ld cand) 64 x) :
    NextMember S (fun y => ¬IdBefore cand y) x := by
  obtain ⟨p, hp, rfl, hcand0, z, hz, hzcand, hz1⟩ : ∃ p : Nat, p < 64 ∧ ld = p ∧ Branches S cand p :=
    hlast.branch.resolve_left (by omega)
  have hbelow : ∀ q, q ≤ p → Agree q x cand := by
    intro q
    induction q with
    | zero => exact fun _ _ hi => absurd hi (Nat.not_lt_zero _)
    | succ q ih =>
      intro hq
      have hagree := ih (by omega)
      refine agree_succ.2 ⟨hagree, by_contra fun hne => hne ?_⟩
      have hdir := h q (by omega) cand hcand hagree.symm (Ne.symm hne)
      exact hdir.trans (searchDirection_below (by omega) cand)
  have hagree : Agree p x cand := hbelow p le_rfl
  have hx1 : idBit x p = true := by
    by_contra hne
    have hdir := h p hp z hz (hzcand.trans hagree.symm) fun heq => hne (heq.symm.trans hz1)
    exact hne (hdir.trans (searchDirection_at p cand))
  have hcandx : IdBefore cand x := ⟨p, hp, hagree.symm, hcand0, hx1⟩
  refine ⟨hx, fun y _ hold => ?_, fun y hy hnew => ?_⟩
  · by_cases heq : y = cand
    · exact heq ▸ hcandx
    · exact idBefore_trans ((idBefore_total heq).resolve_right hold) hcandx
  · obtain ⟨q, hq, hcandy, hcandq, hyq⟩ := not_not.1 hnew
    have hqp : q ≤ p := by
      by_contra hlt
      exact hlast.above q hq (by omega) ⟨hcandq, y, hy, fun i hi => (hcandy i hi).symm, hyq⟩
    rcases hqp.lt_or_eq with hlt | rfl
    · exact .inr ⟨q, hq, (hagree.mono hlt.le).trans hcandy, (hagree q hlt).trans hcandq, hyq⟩
    · have hyx : Agree q y x := (Agree.symm hcandy).trans hagree.symm
      exact h.before hy (n := q + 1) (fun r hr => searchDirection_above (by omega) cand)
        (agree_succ.2 ⟨hyx, hyq.trans hx1.symm⟩)

end

end Sys2Proof.Machine
end

section
/-! PROOFS. `SEARCH` on the reference environment (`42_rom_search.md` R151 to R160, `21_reference_environment.md`
R70): each pass leads to the next attached device, until none is left. -/

namespace Sys2Proof.Machine

open Sys2Proof.Safety

/-! ### One pass -/

/-- What every pass finds before it, and what it leaves: the record and the environment let the primitives run, and `S`
is attached to the selected channel. -/
structure AtPass (c : ConfigRecord) (S : List Identifier) (s : State) (e : RefEnv) : Prop where
  conf : s.conf = c
  on : OnRef s e
  polls : RefPolls c e
  attached : refAttached e = S

/-- Step 3 of a pass before position `p`, when the directions supplied from there on are `dir`. -/
structure MidPass (c : ConfigRecord) (S : List Identifier) (dir : Nat → Bool) (p : Nat) (newLd : Int) (s : State)
    (e : RefEnv) : Prop extends AtPass c S s e where
  rom : p < 64 → e.rom = .search
  position : e.k = p
  walk : Walk S dir p newLd s.cand e.part
  directions : ∀ q, p ≤ q → searchDirection q s.ld s.cand = dir q

section
variable {c : ConfigRecord} {S : List Identifier} {s : State} {e : RefEnv}

/-- A procedure of the OneWireBus within a pass. -/
theorem AtPass.run {α : Type} {p : Proc α} (hp : BusProc p) (h : AtPass c S s e) {v : α} {g : RefEnv}
    (hrun : RefRun c e p v (afterPoll g)) (hg : WireFrame e g) :
    ∃ t, p s = .ok v t ∧ BusFrame s t ∧ AtPass c S t (afterPoll g) := by
  obtain ⟨t, hps, hconf, ht⟩ := hrun s h.conf h.on
  exact ⟨t, hps, hp.busFrame.of_ok hps, hconf, ht, h.polls.afterPoll hg, hg.attached.trans h.attached⟩

/-- What a triplet of a search leaves of the 1-Wire side (`21_reference_environment.md` R68). -/
theorem refTriplet_search_part (c : ConfigRecord) (dir : Bool) (h : e.rom = .search) (hne : e.part ≠ []) :
    (refTriplet c (directionByte dir) e).part = e.part.filter (fun x => idBit x e.k ==
        searchBitTaken (wiredId e.part e.k) (wiredComplement e.part e.k) dir) ∧
      (refTriplet c (directionByte dir) e).k = e.k + 1 ∧
      (refTriplet c (directionByte dir) e).rom = if e.k + 1 = 64 then .func else .search := by
  have hdir : (directionByte dir).getLsbD 7 = dir := by cases dir <;> rfl
  rw [← branchTaken_eq_searchBitTaken (wired_not_both hne e.k), refTriplet, h, hdir]
  exact ⟨rfl, rfl, rfl⟩

/-- One position of step 3: participants answer, and the pass goes on. -/
theorem searchStep_ref (hs : StatusBitsApart c) {dir : Nat → Bool} {p : Nat} (hp : p < 64) {newLd : Int}
    (h : MidPass c S dir p newLd s e) :
    ∃ n t f, searchStep p newLd s = .ok n t ∧ t.res = s.res ∧ MidPass c S dir (p + 1) n t f := by
  have hrom := h.rom hp
  have hk := h.position
  obtain ⟨t, htriplet, hst, ht⟩ := AtPass.run (s := s.setPos p) (searchTriplet_busProc (dir p))
    ⟨h.conf, h.on.of_eq rfl rfl, h.polls, h.attached⟩
    (searchTriplet_refRun h.polls hs hrom (dir p)) (refTriplet_frame c _ e)
  obtain ⟨hpart, hkAfter, hromAfter⟩ := refTriplet_search_part c (dir p) hrom h.walk.nonempty
  have hcand : t.cand = s.cand := hst.cand
  have hstep := h.walk.step hp rfl rfl
  rw [hk] at htriplet hpart hkAfter hromAfter
  have hrun : searchStep p newLd s = .ok (searchNewLd p (wiredId e.part p) (wiredComplement e.part p) (dir p) newLd)
      (t.setCand (withIdBit s.cand p (searchBitTaken (wiredId e.part p) (wiredComplement e.part p) (dir p)))) := by
    rw [searchStep_run, h.directions p le_rfl, htriplet]
    simp only [wired_not_both h.walk.nonempty p, Bool.false_eq_true, if_false, hcand]
  refine ⟨_, _, afterPoll (refTriplet c (directionByte (dir p)) e), hrun, hst.res,
    ⟨ht.conf, ht.on.of_eq rfl rfl, ht.polls, ht.attached⟩, fun hlt => ?_, hkAfter, hpart ▸ hstep, fun q hq => ?_⟩
  · exact hromAfter.trans (if_neg (by omega))
  · rw [← h.directions q (by omega)]
    simp only [State.setCand_ld, State.setCand_cand, hst.ld, State.setPos_ld, searchDirection,
      idBit_withIdBit _ hp, if_neg (show q ≠ p by omega)]

/-- The positions that are left of step 3. -/
theorem searchSteps_ref (hs : StatusBitsApart c) {dir : Nat → Bool} (m : Nat) : ∀ {p : Nat} {newLd : Int} {s : State}
    {e : RefEnv}, p + m = 64 → MidPass c S dir p newLd s e →
    ∃ n t f, searchSteps (List.range' p m) newLd s = .ok n t ∧ t.res = s.res ∧ MidPass c S dir 64 n t f := by
  induction m with
  | zero =>
    rintro p newLd s e rfl h
    exact ⟨newLd, s, e, rfl, rfl, h⟩
  | succ m ih =>
    intro p newLd s e hm h
    obtain ⟨n, t, f, hstep, hres, hmid⟩ := searchStep_ref hs (by omega) h
    obtain ⟨n', u, g, hsteps, hres', hend⟩ := ih (p := p + 1) (by omega) hmid
    exact ⟨n', u, g, (bind_of_ok hstep _).trans hsteps, hres'.trans hres, hend⟩

/-- A pass without presence ends the search and leaves `RES` (`42_rom_search.md` R152). -/
theorem searchPass_ref_empty (hs : StatusBitsApart c) (h : AtPass c [] s e) :
    ∃ t, searchPass s = .ok .noPresence t ∧ t.res = s.res := by
  have hreset := busReset_refRun h.polls hs
  rw [h.attached] at hreset
  obtain ⟨t, hrun, hst, -⟩ := h.run busReset_busProc hreset (refBusReset_frame c e)
  refine ⟨t, ?_, hst.res⟩
  rw [searchPass, bind_of_ok (getConf_run s), bind_of_ok hrun]
  rfl

/-- A pass with presence walks through the attached devices, and ends with the bookkeeping of the candidate it
assembled (`42_rom_search.md` R152 to R158). -/
theorem searchPass_ref (hc : RecordParts c) (hS : S ≠ []) (h : AtPass c S s e) :
    ∃ n u f, searchPass s = .ok (if n < 0 then .last else .again) (searchBookkeeping n u) ∧ u.res = s.res ∧
      AtPass c S u f ∧ u.cand ∈ S ∧ Follows S (fun q => searchDirection q s.ld s.cand) 64 u.cand ∧
      LastBranch S 64 u.cand n := by
  have hattached : refAttached e ≠ [] := h.attached ▸ hS
  have hpresent : (!(refAttached e).isEmpty) = true := by simpa using hattached
  obtain ⟨t, hreset, hst, ht⟩ := h.run busReset_busProc (busReset_refRun h.polls hc.bits) (refBusReset_frame c e)
  have hcmd : (afterPoll (refBusReset c e)).rom = .cmd := by simp [afterPoll, refBusReset, hattached]
  obtain ⟨u, hwrite, htu, hu⟩ := ht.run (writeByte_busProc c.romSearch) (writeByte_refRun ht.polls _)
    (refByteWrite_frame c _ _)
  rw [refByteWrite_cmd _ _ hcmd, if_pos rfl] at hu
  have hld : u.ld = s.ld := htu.ld.trans hst.ld
  have hcand : u.cand = s.cand := htu.cand.trans hst.cand
  have hstart : MidPass c S (fun q => searchDirection q s.ld s.cand) 0 (-1) u _ :=
    ⟨hu, fun _ => rfl, rfl, h.attached ▸ .start hattached _ _, fun q _ => by rw [hld, hcand]⟩
  obtain ⟨n, w, f, hsteps, hres, hend⟩ := searchSteps_ref hc.bits 64 rfl hstart
  refine ⟨n, w, f, ?_, hres.trans (htu.res.trans hst.res), hend.toAtPass, hend.walk.finish⟩
  rw [searchPass, bind_of_ok (getConf_run s), h.conf, bind_of_ok hreset, hpresent, if_pos rfl, bind_of_ok hwrite,
    List.range_eq_range', bind_of_ok hsteps, bind_of_ok (modify_run _ w)]
  rfl

/-! ### The bookkeeping -/

/-- `RES` holds the valid members of `S` that are `old`, in their order. -/
structure Collected (S : List Identifier) (old : Identifier → Prop) (s : State) : Prop where
  mem : ∀ x, x ∈ s.res ↔ x ∈ S ∧ idValid s.conf x = true ∧ old x
  sorted : s.res.Pairwise IdBefore

/-- Step 4 adds the candidate to `RES` when it is valid and comes after those already there (`42_rom_search.md` R156,
R157). -/
theorem searchBookkeeping_res {old : Identifier → Prop} (h : Collected S old s) (hnext : NextMember S old s.cand)
    (n : Int) : (searchBookkeeping n s).res = if idValid s.conf s.cand then s.res ++ [s.cand] else s.res := by
  have hnew : s.cand ∉ s.res := fun hmem => by
    obtain ⟨hS, -, hold⟩ := (h.mem s.cand).1 hmem
    exact idBefore_irrefl _ (hnext.after _ hS hold)
  have hcontains : s.res.contains s.cand = false := by simpa using hnew
  simp only [searchBookkeeping, hcontains, Bool.not_false, Bool.and_true]
  split <;> rfl

theorem searchBookkeeping_fields (n : Int) (s : State) : (searchBookkeeping n s).ld = n ∧
    (searchBookkeeping n s).cand = s.cand ∧ (searchBookkeeping n s).conf = s.conf ∧
    (searchBookkeeping n s).addr = s.addr ∧ (searchBookkeeping n s).env = s.env := by
  unfold searchBookkeeping
  dsimp only
  split <;> exact ⟨rfl, rfl, rfl, rfl, rfl⟩

/-- A pass that led to the next member has collected it too, if it is valid. -/
theorem Collected.next {old : Identifier → Prop} (h : Collected S old s) (hnext : NextMember S old s.cand) (n : Int) :
    Collected S (fun x => ¬IdBefore s.cand x) (searchBookkeeping n s) := by
  obtain ⟨-, -, hconf, -, -⟩ := searchBookkeeping_fields n s
  have hold : ∀ x ∈ S, (¬IdBefore s.cand x ↔ old x ∨ x = s.cand) := by
    intro x hx
    refine ⟨fun hb => ?_, ?_⟩
    · by_contra hno
      obtain ⟨hnew, hne⟩ := not_or.1 hno
      exact hb ((hnext.first x hx hnew).resolve_left hne)
    · rintro (hx' | rfl) hb
      · exact idBefore_irrefl _ (idBefore_trans hb (hnext.after x hx hx'))
      · exact idBefore_irrefl _ hb
  constructor
  · intro x
    rw [searchBookkeeping_res h hnext, hconf]
    split
    next hvalid =>
      rw [List.mem_append, List.mem_singleton, h.mem]
      constructor
      · rintro (⟨hx, hv, ho⟩ | rfl)
        · exact ⟨hx, hv, (hold x hx).2 (.inl ho)⟩
        · exact ⟨hnext.mem, hvalid, idBefore_irrefl _⟩
      · rintro ⟨hx, hv, hb⟩
        exact ((hold x hx).1 hb).imp_left fun ho => ⟨hx, hv, ho⟩
    next hinvalid =>
      rw [h.mem]
      refine and_congr_right fun hx => and_congr_right fun hv => ?_
      rw [hold x hx, or_iff_left]
      rintro rfl
      exact hinvalid hv
  · rw [searchBookkeeping_res h hnext]
    split
    · refine List.pairwise_append.2 ⟨h.sorted, List.pairwise_singleton _ _, fun x hx y hy => ?_⟩
      obtain ⟨hS, -, ho⟩ := (h.mem x).1 hx
      exact List.mem_singleton.1 hy ▸ hnext.after x hS ho
    · exact h.sorted

/-! ### The loop of passes -/

/-- After a pass: the candidate is an attached device, `LD` its last discrepancy, and `RES` holds the valid devices up
to it. -/
structure AfterPass (c : ConfigRecord) (S : List Identifier) (s : State) (e : RefEnv) : Prop
    extends AtPass c S s e where
  cand : s.cand ∈ S
  last : LastBranch S 64 s.cand s.ld
  collected : Collected S (fun x => ¬IdBefore s.cand x) s

/-- A pass that leads to the member next after those already collected. -/
theorem searchPass_afterPass (hc : RecordParts c) (hS : S ≠ []) (h : AtPass c S s e) {old : Identifier → Prop}
    (hcollected : Collected S old s)
    (hnext : ∀ x ∈ S, Follows S (fun q => searchDirection q s.ld s.cand) 64 x → NextMember S old x) :
    ∃ t f, searchPass s = .ok (if t.ld < 0 then .last else .again) t ∧ AfterPass c S t f ∧ NextMember S old t.cand := by
  obtain ⟨n, u, f, hrun, hres, hu, hcand, hfollows, hlast⟩ := searchPass_ref hc hS h
  obtain ⟨hld, hcand', hconf, haddr, henv⟩ := searchBookkeeping_fields n u
  have hmember := hnext u.cand hcand hfollows
  have hu_collected : Collected S old u :=
    ⟨fun x => by rw [hres, hu.conf, ← h.conf]; exact hcollected.mem x, hres ▸ hcollected.sorted⟩
  refine ⟨searchBookkeeping n u, f, by rw [hrun, hld], ⟨⟨hconf.trans hu.conf, hu.on.of_eq henv haddr, hu.polls,
    hu.attached⟩, hcand' ▸ hcand, ?_, ?_⟩, hcand' ▸ hmember⟩
  · rw [hld, hcand']
    exact hlast
  · rw [hcand']
    exact hu_collected.next hmember n

end

open Classical in
/-- The members of `S` after `x`: the devices that are still to be found. -/
noncomputable def membersAfter (S : List Identifier) (x : Identifier) : Finset Identifier :=
  S.toFinset.filter (IdBefore x)

theorem mem_membersAfter {S : List Identifier} {x y : Identifier} : y ∈ membersAfter S x ↔ y ∈ S ∧ IdBefore x y := by
  simp [membersAfter]

section
variable {c : ConfigRecord} {S : List Identifier}

/-- With no discrepancy left (`42_rom_search.md` R158), no member comes after the candidate. -/
theorem LastBranch.none_after {x : Identifier} {ld : Int} (h : LastBranch S 64 x ld) (hld : ld < 0) :
    ∀ y ∈ S, ¬IdBefore x y := by
  rintro y hy ⟨q, hq, hagree, hx, hy1⟩
  exact h.above q hq (by omega) ⟨hx, y, hy, Agree.symm hagree, hy1⟩

/-- A discrepancy that is left leads to a member after the candidate. -/
theorem LastBranch.exists_after {x : Identifier} {ld : Int} (h : LastBranch S 64 x ld) (hld : 0 ≤ ld) :
    (membersAfter S x).Nonempty := by
  obtain ⟨p, hp, -, hx, y, hy, hagree, hy1⟩ := h.branch.resolve_left (by omega)
  exact ⟨y, mem_membersAfter.2 ⟨hy, p, hp, hagree.symm, hx, hy1⟩⟩

/-- Each further pass finds one more member, so that as many passes as there are members after the candidate end the
search (`42_rom_search.md` R160). -/
theorem searchLoop_ref (hc : RecordParts c) (n : Nat) : ∀ {s : State} {e : RefEnv}, AfterPass c S s e →
    0 ≤ s.ld → (membersAfter S s.cand).card ≤ n →
    ∃ t f, searchLoop n s = .ok true t ∧ AfterPass c S t f ∧ t.ld < 0 := by
  induction n with
  | zero =>
    intro s e h hld hn
    exact absurd (Finset.card_pos.2 (h.last.exists_after hld)) (by omega)
  | succ n ih =>
    intro s e h hld hn
    obtain ⟨t, f, hrun, ht, hnext⟩ := searchPass_afterPass hc (List.ne_nil_of_mem h.cand) h.toAtPass h.collected
      fun x hx => nextMember_later hx h.cand h.last hld
    rw [searchLoop, bind_of_ok hrun]
    by_cases hneg : t.ld < 0
    · rw [if_pos hneg]
      exact ⟨t, f, rfl, ht, hneg⟩
    · rw [if_neg hneg]
      have hbefore : IdBefore s.cand t.cand := hnext.after _ h.cand (idBefore_irrefl _)
      have hsub : membersAfter S t.cand ⊂ membersAfter S s.cand := by
        refine Finset.ssubset_iff_of_subset (fun y hy => ?_) |>.2 ⟨t.cand, mem_membersAfter.2 ⟨ht.cand, hbefore⟩,
          fun hmem => idBefore_irrefl _ (mem_membersAfter.1 hmem).2⟩
        obtain ⟨hS, hy⟩ := mem_membersAfter.1 hy
        exact mem_membersAfter.2 ⟨hS, idBefore_trans hbefore hy⟩
      exact ih ht (not_lt.1 hneg) (by have := Finset.card_lt_card hsub; omega)

/-- The whole loop, from a fresh search: all members are collected (`42_rom_search.md` R160). -/
theorem searchLoop_ref_fresh (hc : RecordParts c) {s : State} {e : RefEnv} (h : AtPass c S s e) (hres : s.res = [])
    (hld : s.ld = -1) {n : Nat} (hn : 0 < n) (hlen : S.length ≤ n) :
    ∃ t, searchLoop n s = .ok true t ∧ Collected S (fun _ => True) t := by
  obtain ⟨n, rfl⟩ := Nat.exists_eq_succ_of_ne_zero hn.ne'
  by_cases hS : S = []
  · subst hS
    obtain ⟨t, hrun, htres⟩ := searchPass_ref_empty hc.bits h
    refine ⟨t, by rw [searchLoop, bind_of_ok hrun]; rfl, ?_, ?_⟩ <;> simp [htres, hres]
  have hnone : Collected S (fun _ => False) s := ⟨by simp [hres], by simp [hres]⟩
  obtain ⟨t, f, hrun, ht, -⟩ := searchPass_afterPass hc hS h hnone
    fun x hx hfollows => nextMember_first hx (hld ▸ hfollows)
  obtain ⟨u, g, hloop, hu, huld⟩ : ∃ u g, searchLoop (n + 1) s = .ok true u ∧ AfterPass c S u g ∧ u.ld < 0 := by
    rw [searchLoop, bind_of_ok hrun]
    by_cases hneg : t.ld < 0
    · rw [if_pos hneg]
      exact ⟨t, f, rfl, ht, hneg⟩
    · rw [if_neg hneg]
      have hsub : membersAfter S t.cand ⊂ S.toFinset := by
        refine Finset.ssubset_iff_of_subset (fun y hy => ?_) |>.2 ⟨t.cand, List.mem_toFinset.2 ht.cand,
          fun hmem => idBefore_irrefl _ (mem_membersAfter.1 hmem).2⟩
        exact List.mem_toFinset.2 (mem_membersAfter.1 hy).1
      have hcard := Finset.card_lt_card hsub
      have hle := S.toFinset_card_le
      exact searchLoop_ref hc n ht (not_lt.1 hneg) (by omega)
  refine ⟨u, hloop, fun x => ?_, hu.collected.sorted⟩
  rw [hu.collected.mem]
  exact and_congr_right fun hx => and_congr_right fun _ => iff_true_intro (hu.last.none_after huld x hx)

end

/-- `SEARCH` collects the attached devices that are valid, in their order, when its fuel is no less than their number
(log 7). -/
theorem searchProc_ref {s : State} {e : RefEnv} (hr : RefReady s e) (hc : RecordParts s.conf)
    (hfuel : 0 < s.conf.searchFuel) (hlen : (refAttached e).length ≤ s.conf.searchFuel) :
    ∃ t, searchProc s = .ok (some t.res) t ∧ Collected (refAttached e) (fun _ => True) t := by
  have h := OnRef.of_ready hr
  obtain ⟨t, hloop, ht⟩ := searchLoop_ref_fresh hc (s := searchFresh s)
    ⟨rfl, h.of_eq rfl rfl, .of_ready hr hc.codes, rfl⟩ rfl rfl hfuel hlen
  refine ⟨t, ?_, ht⟩
  rw [searchProc, bind_of_ok (getConf_run s), bind_of_ok (modify_run _ s), bind_of_ok hloop, bind_of_ok (get_run t)]
  rfl

/-- Settles O59: the loop of passes collects every attached device, one in each pass. -/
theorem searchAttachedDevicesOnReferenceEnvironment : Obligations.SearchAttachedDevicesOnReferenceEnvironment := by
  intro s e hr hc hm hfuel hlen
  obtain ⟨t, hrun, ht⟩ := searchProc_ref hr (recordParts hc) hfuel hlen
  have hst := searchProc_keeps.of_ok hrun
  refine ⟨deliver (.ok (.ids t.res)) t, t.res, ?_, rfl, hst.mode.trans hm, rfl, ?_, fun x => ?_⟩
  · change execSearch s = _
    simp only [execSearch, hostPrim, hm, List.mem_singleton, if_true, hrun]
  · refine ht.sorted.imp fun hb => ?_
    rintro rfl
    exact idBefore_irrefl _ hb
  · rw [ht.mem, hst.conf, and_true]

end Sys2Proof.Machine
end

section
/-! PROOFS. The decoder and the encoder (`30_encoding.md` R80 to R92): each is the other's inverse, and a packet decodes
exactly when byte 0 is an opcode and its bytes are all there. -/

namespace Sys2Proof

open Sys2Proof.Machine Sys2Proof.Safety

/-! ### Byte 0 -/

theorem mem_opsOf_iff {op : Op} {f : Format} : op ∈ opsOf f ↔ formatOf op = f := by
  cases f <;> cases op <;> decide

theorem nodup_opcodes {c : ConfigRecord} (hc : codesDistinct c = true) (f : Format) :
    ((opsOf f).map (opcode c)).Nodup := by
  obtain ⟨hH, hB, hW⟩ := of_decide_eq_true hc
  cases f with
  | H => exact hH
  | B => exact hB
  | W => exact hW

/-- Byte 0 of a row finds that row, since the codes of its format differ. -/
theorem find_opcode {c : ConfigRecord} (hc : codesDistinct c = true) (op : Op) :
    (opsOf (formatOf op)).find? (fun o => opcode c o == opcode c op) = some op := by
  have hmem : op ∈ opsOf (formatOf op) := mem_opsOf_iff.2 rfl
  cases h : (opsOf (formatOf op)).find? (fun o => opcode c o == opcode c op) with
  | none => exact absurd (List.find?_eq_none.1 h op hmem) (by simp)
  | some o =>
    have hcode : opcode c o = opcode c op := by simpa using List.find?_some h
    rw [List.inj_on_of_nodup_map (nodup_opcodes hc _) (List.mem_of_find?_eq_some h) hmem hcode]

/-- The decoder takes bytes exactly when byte 0 is that of a row and the operand bytes of the row are there. -/
theorem decode_eq_ok_iff {c : ConfigRecord} {f : Format} {b : Byte} {bytes : List Byte} {r : Instr × List Byte} :
    decode c f (b :: bytes) = .ok r ↔
      ∃ op, (opsOf f).find? (fun o => opcode c o == b) = some op ∧ operands op bytes = some r := by
  rw [decode]
  cases (opsOf f).find? (fun o => opcode c o == b) with
  | none => simp
  | some op => cases h : operands op bytes <;> simp [h]

/-! ### The operand bytes -/

/-- How many operand bytes a row takes; the first of them says it for `CRC8` (`30_encoding.md` R81, R84). -/
def operandCount (op : Op) (bytes : List Byte) : Nat :=
  match op with
  | .init => 2
  | .selch | .owwrite | .srp | .wcfg | .chsl | .w1wb | .w1t | .w1sb => 1
  | .owreset | .owread | .search | .drst | .w1rs | .w1rb | .romSearch => 0
  | .matchrom | .romMatch => 8
  | .crc8 => 1 + (bytes.headD 0).toNat

theorem eightBytes_toList (f : Identifier → Instr) (id : Identifier) (rest : List Byte) :
    eightBytes f (id.toList ++ rest) = some (f id, rest) := by
  obtain ⟨⟨l⟩, hl⟩ := id
  match l, hl with
  | [b0, b1, b2, b3, b4, b5, b6, b7], _ => rfl

theorem oneByte_eq_some {f : Byte → Instr} {bytes rest : List Byte} {i : Instr}
    (h : oneByte f bytes = some (i, rest)) : ∃ b, i = f b ∧ bytes = b :: rest := by
  match bytes, h with
  | b :: _, rfl => exact ⟨b, rfl, rfl⟩

theorem eightBytes_eq_some {f : Identifier → Instr} {bytes rest : List Byte} {i : Instr}
    (h : eightBytes f bytes = some (i, rest)) : ∃ id : Identifier, i = f id ∧ bytes = id.toList ++ rest := by
  match bytes, h with
  | b0 :: b1 :: b2 :: b3 :: b4 :: b5 :: b6 :: b7 :: _, rfl => exact ⟨#v[b0, b1, b2, b3, b4, b5, b6, b7], rfl, rfl⟩

/-- The operand bytes of an instruction are read back; of the legal operands only the length of `CRC8`, which stands in
one byte, matters. -/
theorem operands_operandBytes {c : ConfigRecord} {i : Instr} (hi : wellFormed c i = true) (rest : List Byte) :
    operands (opOf i) (operandBytes i ++ rest) = some (i, rest) := by
  cases i with
  | matchrom id => exact eightBytes_toList _ id rest
  | romMatch id => exact eightBytes_toList _ id rest
  | crc8 data =>
    have hlen : data.length ≤ 255 := of_decide_eq_true hi
    have hcount : (BitVec.ofNat 8 data.length).toNat = data.length := by
      rw [BitVec.toNat_ofNat]
      omega
    simp [operands, opOf, operandBytes, hcount]
  | _ => rfl

/-- What is read of a row's operand bytes is an instruction of that row; its operand bytes are those read, as many as
the row takes. -/
theorem operands_eq_some {op : Op} {bytes rest : List Byte} {i : Instr} (h : operands op bytes = some (i, rest)) :
    opOf i = op ∧ operandBytes i ++ rest = bytes ∧ (operandBytes i).length = operandCount op bytes := by
  cases op with
  | init =>
    match bytes, h with
    | _ :: _ :: _, rfl => exact ⟨rfl, rfl, rfl⟩
  | crc8 =>
    match bytes, h with
    | n :: data, h =>
      rw [operands] at h
      split at h
      · cases h
      next hlen =>
        cases h
        have hcount : min n.toNat data.length = n.toNat := by omega
        simp [opOf, operandBytes, operandCount, hcount, Nat.add_comm]
  | matchrom | romMatch =>
    obtain ⟨id, rfl, rfl⟩ := eightBytes_eq_some h
    exact ⟨rfl, rfl, id.size_toArray⟩
  | selch | owwrite | srp | wcfg | chsl | w1wb | w1t | w1sb =>
    obtain ⟨b, rfl, rfl⟩ := oneByte_eq_some h
    exact ⟨rfl, rfl, rfl⟩
  | owreset | owread | search | drst | w1rs | w1rb | romSearch =>
    cases h
    exact ⟨rfl, rfl, rfl⟩

/-! ### Each is the other's inverse -/

/-- Settles O2: byte 0 finds the row, and the row's operand bytes are read back. -/
theorem decodeOfEncode : Obligations.DecodeOfEncode := by
  intro c i rest hc hi
  exact decode_eq_ok_iff.2 ⟨opOf i, find_opcode hc _, operands_operandBytes hi rest⟩

/-- Settles O3: the row found has the byte as its code, and the instruction read is of that row. -/
theorem encodeOfDecode : Obligations.EncodeOfDecode := by
  intro c f bytes rest i h
  cases bytes with
  | nil => cases h
  | cons b bytes =>
    obtain ⟨op, hfind, hread⟩ := decode_eq_ok_iff.1 h
    obtain ⟨rfl, hbytes, -⟩ := operands_eq_some hread
    have hcode : opcode c (opOf i) = b := by simpa using List.find?_some hfind
    exact ⟨by rw [encode, List.cons_append, hcode, hbytes], mem_opsOf_iff.1 (List.mem_of_find?_eq_some hfind)⟩

/-! ### Complete packets -/

theorem oneByte_isSome {f : Byte → Instr} {bytes : List Byte} :
    (oneByte f bytes).isSome = true ↔ 1 ≤ bytes.length := by
  match bytes with
  | [] => simp [oneByte]
  | _ :: _ => simp [oneByte]

theorem eightBytes_isSome {f : Identifier → Instr} {bytes : List Byte} :
    (eightBytes f bytes).isSome = true ↔ 8 ≤ bytes.length := by
  match bytes with
  | _ :: _ :: _ :: _ :: _ :: _ :: _ :: _ :: _ => simp [eightBytes]
  | [] | [_] | [_, _] | [_, _, _] | [_, _, _, _] | [_, _, _, _, _] | [_, _, _, _, _, _] | [_, _, _, _, _, _, _] =>
    simp [eightBytes]

/-- Operand bytes are read exactly when there are as many as the row takes. -/
theorem operands_isSome {op : Op} {bytes : List Byte} :
    (operands op bytes).isSome = true ↔ operandCount op bytes ≤ bytes.length := by
  cases op with
  | init =>
    match bytes with
    | [] | [_] => simp [operands, operandCount]
    | _ :: _ :: _ => simp [operands, operandCount]
  | crc8 =>
    match bytes with
    | [] => simp [operands, operandCount]
    | n :: data =>
      rw [operands]
      split <;> simp [operandCount] <;> omega
  | matchrom | romMatch => exact eightBytes_isSome
  | selch | owwrite | srp | wcfg | chsl | w1wb | w1t | w1sb => exact oneByte_isSome
  | owreset | owread | search | drst | w1rs | w1rb | romSearch => simp [operands, operandCount]

/-- The length of a packet whose byte 0 is an opcode is one more than its row takes; no other byte 0 decides a length
(`30_encoding.md` R81, R83). -/
theorem packetLength_cons (c : ConfigRecord) (b : Byte) (bytes : List Byte) :
    packetLength (b :: bytes) =
      ((opsOf .H).find? (fun o => opcode c o == b)).map (fun op => operandCount op bytes + 1) := by
  by_cases hb : b ∈ (opsOf .H).map (opcode c)
  · simp only [opsOf, List.map_cons, List.map_nil, List.mem_cons, List.not_mem_nil, or_false] at hb
    rcases hb with rfl | rfl | rfl | rfl | rfl | rfl | rfl | rfl
    iterate 7 · rfl
    · exact congrArg some (show 2 + (bytes.headD 0).toNat = 1 + (bytes.headD 0).toNat + 1 by omega)
  · have hnone : (opsOf .H).find? (fun o => opcode c o == b) = none := by
      simpa [List.find?_eq_none] using hb
    rw [hnone]
    simp only [opsOf, opcode, List.map_cons, List.map_nil, List.mem_cons, List.not_mem_nil, or_false, not_or] at hb
    simp only [packetLength, hb, if_false, Option.map_none]

/-- The decoder takes a packet exactly when it is complete. -/
theorem decode_isOk_iff (c : ConfigRecord) (bytes : List Byte) :
    (∃ i rest, decode c .H bytes = .ok (i, rest)) ↔ packetComplete bytes := by
  cases bytes with
  | nil => simp [decode, packetComplete, packetLength]
  | cons b bytes =>
    simp only [decode_eq_ok_iff, packetComplete, packetLength_cons c, Option.map_eq_some_iff]
    constructor
    · rintro ⟨i, rest, op, hfind, hread⟩
      have hcount : operandCount op bytes ≤ bytes.length := operands_isSome.1 (by simp [hread])
      exact ⟨_, ⟨op, hfind, rfl⟩, Nat.succ_le_succ hcount⟩
    · rintro ⟨_, ⟨op, hfind, rfl⟩, hlen⟩
      obtain ⟨⟨i, rest⟩, hread⟩ := Option.isSome_iff_exists.1 (operands_isSome.2 (Nat.le_of_succ_le_succ hlen))
      exact ⟨i, rest, op, hfind, hread⟩

/-- The decoder reads as many bytes as byte 0 decides. -/
theorem decode_rest {c : ConfigRecord} {bytes rest : List Byte} {i : Instr} (h : decode c .H bytes = .ok (i, rest)) :
    ∃ n, packetLength bytes = some n ∧ rest = bytes.drop n := by
  cases bytes with
  | nil => cases h
  | cons b bytes =>
    obtain ⟨op, hfind, hread⟩ := decode_eq_ok_iff.1 h
    obtain ⟨-, hbytes, hcount⟩ := operands_eq_some hread
    refine ⟨operandCount op bytes + 1, by rw [packetLength_cons c, hfind]; rfl, ?_⟩
    rw [List.drop_succ_cons, ← hcount, ← hbytes, List.drop_left]

/-- Settles O4: the operand bytes of the row that byte 0 finds are read exactly when they are there. -/
theorem packetDecodesExactlyWhenComplete : Obligations.PacketDecodesExactlyWhenComplete :=
  fun c bytes => ⟨decode_isOk_iff c bytes, fun _ _ => decode_rest⟩

/-! ### Packets as steps -/

theorem step_packet {s : State} {f : Format} {bytes : List Byte} {rest : List Input}
    (h : s.inbox = .op f bytes :: rest) : step s = runPacket f bytes (s.setInbox rest) := by
  rw [step, h]

/-- Settles O6: the step runs the packet, and that the instruction it decodes to. -/
theorem stepRunsDecodedInstruction : Obligations.StepRunsDecodedInstruction := by
  intro s f bytes tail rest i hinbox hdecode
  rw [step_packet hinbox, runPacket, State.setInbox_conf, hdecode]
  rfl

/-- Settles O5: a packet that is not complete does not decode, and one that does not is refused. -/
theorem reservedOrShortPacketIsRefused : Obligations.ReservedOrShortPacketIsRefused := by
  intro s bytes rest hinbox hshort
  rw [step_packet hinbox, runPacket, State.setInbox_conf]
  cases hdecode : decode s.conf .H bytes with
  | ok r => exact absurd ((decode_isOk_iff s.conf bytes).1 ⟨r.1, r.2, hdecode⟩) hshort
  | error e => rfl

/-- Settles O1: the decoder evaluated on each word. -/
theorem tableWordsDecode : Obligations.TableWordsDecode := by
  intro v n
  exact ⟨rfl, rfl, rfl, rfl, rfl, rfl, rfl, rfl, rfl, rfl, rfl, rfl, rfl, rfl, rfl, rfl, rfl, rfl, rfl⟩

end Sys2Proof
end

section
/-! PROOFS. The outcome codes, and the type of the value each host operation answers (`30_encoding.md` R85). -/

namespace Sys2Proof.Machine

/-- The type of the value an instruction answers with `OK` (`30_encoding.md` R85); a fragment run as a step answers
nothing (log 9). -/
def valueTyped : Instr → Value → Prop
  | .owreset, v | .matchrom _, v => ∃ b, v = .bit b
  | .owread, v | .crc8 _, v => ∃ b, v = .byte b
  | .search, v => ∃ l, v = .ids l
  | _, v => v = .none

/-- Of the outcomes only `OK(v)` answers a value. -/
def AnswersOnly (P : Value → Prop) (t : State) : Prop := ∀ v, t.outcome = some (.ok v) → P v

theorem AnswersOnly.refuse (P : Value → Prop) (r : RefusedReason) (s : State) : AnswersOnly P (refuse r s) := nofun

theorem AnswersOnly.takeError (P : Value → Prop) (site : ErrorSite) (e : Err) (s : State) :
    AnswersOnly P (takeError site e s) := nofun

theorem AnswersOnly.deliver {P : Value → Prop} {v : Value} (hv : P v) (s : State) :
    AnswersOnly P (deliver (.ok v) s) := by
  rintro w ⟨⟩
  exact hv

theorem AnswersOnly.nothing (s : State) : AnswersOnly (· = .none) (Machine.deliver (.ok .none) s) :=
  .deliver (P := (· = .none)) rfl s

theorem primEnd_answers {α : Type} {allowed : List Mode} {body : Proc α} {finish : α → State → State}
    {P : Value → Prop} (hfinish : ∀ a u, AnswersOnly P (finish a u)) {s t : State}
    (h : PrimEnd allowed body finish s t) : AnswersOnly P t := by
  cases h with
  | refused hm => exact .refuse P _ s
  | ok hm hv => exact hfinish _ _
  | err hm he => exact .takeError P _ _ _

theorem runFragment_answers (p : Proc Unit) (s : State) : AnswersOnly (· = .none) (runFragment p s) := by
  rcases runFragment_cases p s with ⟨-, h⟩ | ⟨-, t, -, h⟩ | ⟨-, e, t, -, h⟩ <;> rw [h]
  · exact .refuse _ _ s
  · exact .nothing t
  · exact nofun

theorem execInit_answers (addr ch : Byte) {s t : State} (h : exec (.init addr ch) s = .next t) :
    AnswersOnly (· = .none) t := by
  obtain rfl := Host.Outcome.next.inj h
  split
  · unfold initAccepted
    split
    · exact .nothing _
    · exact .takeError _ _ _ _
  · exact .refuse _ _ s

theorem execSelch_answers (ch : Byte) {s t : State} (h : exec (.selch ch) s = .next t) :
    AnswersOnly (· = .none) t := by
  obtain rfl := Host.Outcome.next.inj h
  split
  · split
    · unfold selchReady
      split
      · exact .nothing s
      · rcases selchMulti_cases ch s with ⟨u, -, h⟩ | ⟨site, e, u, -, h, -⟩ <;> rw [h]
        · exact .nothing _
        · exact .takeError _ _ _ _
    · exact .refuse _ _ s
  · exact .refuse _ _ s

theorem execSearch_answers {s t : State} (h : exec .search s = .next t) : AnswersOnly (fun v => ∃ l, v = .ids l) t := by
  rcases execSearch_cases h with ⟨-, rfl⟩ | ⟨-, u, -, rfl⟩ | ⟨-, e, u, -, rfl⟩
  · exact .refuse _ _ s
  · exact .deliver ⟨_, rfl⟩ u
  · exact .takeError _ _ _ _

theorem exec_answers {i : Instr} {s t : State} (h : exec i s = .next t) : AnswersOnly (valueTyped i) t := by
  have prim {β : Type} (value : β → Value) {P : Value → Prop} (hP : ∀ b, P (value b)) (body : Proc β) :
      AnswersOnly P (endPrim value (hostPrim [.ready] body s)) :=
    primEnd_answers (fun b u => .deliver (hP b) u) (endPrim_primEnd [.ready] body value s)
  cases i with
  | init addr ch => exact execInit_answers addr ch h
  | selch ch => exact execSelch_answers ch h
  | owreset => exact primEnd_answers (fun b u => .deliver ⟨b, rfl⟩ _) (execOwreset_primEnd h)
  | owwrite b => exact Host.Outcome.next.inj h ▸ prim (P := (· = .none)) _ (fun _ => rfl) (writeByte b)
  | owread => exact Host.Outcome.next.inj h ▸ prim _ (fun b => ⟨b, rfl⟩) readByte
  | matchrom id => exact Host.Outcome.next.inj h ▸ prim _ (fun b => ⟨b, rfl⟩) (matchRom id)
  | search => exact execSearch_answers h
  | crc8 data => exact Host.Outcome.next.inj h ▸ .deliver ⟨_, rfl⟩ s
  | _ => exact Host.Outcome.next.inj h ▸ runFragment_answers _ s

theorem outcomeCode_ne_reserved (r : HostOutcome Value) : outcomeCode r ≠ 0x05 := by
  cases r with
  | ok v => change (0x00 : Byte) ≠ 0x05; decide
  | err e => cases e <;> decide
  | refused r => cases r <;> decide

/-- Settles O16: the codes by evaluation, the values by the type every instruction answers in. -/
theorem outcomesAreTheTable : Obligations.OutcomesAreTheTable := by
  refine ⟨fun _ => rfl, rfl, rfl, rfl, rfl, rfl, rfl, rfl, outcomeCode_ne_reserved, fun i s t v h hout => ?_⟩
  have hv : valueTyped i v := exec_answers h v hout
  refine ⟨?_, ?_, ?_, ?_⟩
  · rintro (⟨addr, ch, rfl⟩ | ⟨ch, rfl⟩ | ⟨b, rfl⟩) <;> exact hv
  · rintro (rfl | ⟨id, rfl⟩) <;> exact hv
  · rintro (rfl | ⟨d, rfl⟩) <;> exact hv
  · rintro rfl
    exact hv

end Sys2Proof.Machine
end

section
/-! PROOFS. A host operation writes a 1-Wire command only right after the status read that ended a poll
(`30_encoding.md` R86, `70_reset_and_hazards.md` R216). What the scanner has reached after each part of a procedure is
taken from the runs above. -/

namespace Sys2Proof.Machine

open Sys2Proof.Safety

/-! ### Procedures read with the trace they add -/

theorem polled_append (c : ConfigRecord) (p q : List TransportOp) : ∀ x : TraceScan,
    polled c x (p ++ q) = (polled c x p && polled c (scan c x p) q) := by
  induction p with
  | nil => exact fun x => (Bool.true_and _).symm
  | cons op p ih => exact fun x => by simp [polled, ih, Bool.and_assoc]

/-- From `s` to `t` operations were added, and each 1-Wire command among them came after an idle poll. -/
def AddsPolled (c : ConfigRecord) (x : TraceScan) (s t : State) : Prop :=
  ∃ ops, t.trace = s.trace ++ ops ∧ polled c x ops = true

theorem AddsPolled.of_trace_eq {c : ConfigRecord} {x : TraceScan} {s t : State} (h : t.trace = s.trace) :
    AddsPolled c x s t := ⟨[], by simpa using h, rfl⟩

/-- With the trace so far scanned to `x`, every run of `p` is such. -/
def Polls {α : Type} (c : ConfigRecord) (x : TraceScan) (p : Proc α) : Prop :=
  ∀ s, s.conf = c → AddsPolled c x s (finalState (p s))

section
variable {α β : Type} {c : ConfigRecord} {x : TraceScan} {p : Proc α}

theorem Polls.of_ok (h : Polls c x p) {s t : State} {a : α} (hs : s.conf = c) (hp : p s = .ok a t) :
    AddsPolled c x s t := by
  have := h s hs
  rwa [hp] at this

theorem Polls.of_error (h : Polls c x p) {s t : State} {e : Err} (hs : s.conf = c) (hp : p s = .error e t) :
    AddsPolled c x s t := by
  have := h s hs
  rwa [hp] at this

/-- One procedure after the other: `V` says what the scanner has reached between them. -/
theorem Polls.bind {p' : Proc α} {V : TraceScan → α → α → Prop} {f : α → Proc β} (hp : Polls c x p)
    (hV : Mirrors c x p p' V) (hf : ∀ y v, V y v v → Polls c y (f v)) : Polls c x (p >>= f) := by
  intro s hs
  obtain ⟨ops, htrace, hpolled⟩ := hp s hs
  obtain ⟨⟨hconf, -, -⟩, hended, -⟩ := hV.of_trace hs htrace
  cases hrun : p s with
  | error e t =>
    rw [hrun] at htrace
    rw [bind_of_error hrun]
    exact ⟨ops, htrace, hpolled⟩
  | ok v t =>
    rw [hrun] at htrace hconf hended
    rw [bind_of_ok hrun]
    obtain ⟨ops₂, htrace₂, hpolled₂⟩ := hf _ v hended t hconf
    exact ⟨ops ++ ops₂, by rw [htrace₂, ← List.append_assoc, ← htrace]; rfl, by simp [polled_append, hpolled, hpolled₂]⟩

/-- A first part that issues no transport operation. -/
theorem Polls.bind_silent {f : α → Proc β} (h : ∀ s, s.conf = c → ∃ v t, p s = .ok v t ∧ t.conf = c ∧
    t.trace = s.trace ∧ Polls c x (f v)) : Polls c x (p >>= f) := by
  intro s hs
  obtain ⟨v, t, hrun, hconf, htrace, hf⟩ := h s hs
  rw [bind_of_ok hrun]
  obtain ⟨ops, hops, hpolled⟩ := hf t hconf
  exact ⟨ops, htrace ▸ hops, hpolled⟩

theorem Polls.getConf_bind {f : ConfigRecord → Proc β} (h : Polls c x (f c)) : Polls c x (getConf >>= f) :=
  .bind_silent fun s hs => ⟨_, s, getConf_run s, hs, rfl, by rwa [hs]⟩

theorem Polls.get_bind {f : State → Proc β} (h : ∀ s, Polls c x (f s)) : Polls c x (get >>= f) :=
  .bind_silent fun s hs => ⟨s, s, rfl, hs, rfl, h s⟩

theorem Polls.modify_bind {g : State → State} {f : PUnit → Proc β}
    (hg : ∀ s, (g s).conf = s.conf ∧ (g s).trace = s.trace) (h : Polls c x (f ⟨⟩)) : Polls c x (modify g >>= f) :=
  .bind_silent fun s hs => have ⟨hconf, htrace⟩ := hg s
    ⟨⟨⟩, g s, rfl, hconf.trans hs, htrace, h⟩

theorem Polls.pure (a : α) : Polls c x (pure a : Proc α) := fun _ _ => .of_trace_eq rfl

theorem Polls.throw (e : Err) : Polls c x (throw e : Proc α) := fun _ _ => .of_trace_eq rfl

end

/-! ### Reads -/

/-- From `s` to `t` no write was acknowledged. -/
def AddsNoWrite (s t : State) : Prop := ∃ ops, t.trace = s.trace ++ ops ∧ ∀ op ∈ ops, ∀ a b, op ≠ .wr a b

theorem AddsNoWrite.of_trace_eq {s t : State} (h : t.trace = s.trace) : AddsNoWrite s t :=
  ⟨[], by simpa using h, by simp⟩

theorem AddsNoWrite.trans (s t u : State) : AddsNoWrite s t → AddsNoWrite t u → AddsNoWrite s u := by
  rintro ⟨p, hp, hpw⟩ ⟨q, hq, hqw⟩
  exact ⟨p ++ q, by rw [hq, hp, List.append_assoc], fun op hop => (List.mem_append.1 hop).elim (hpw op) (hqw op)⟩

/-- Only a write can be a 1-Wire command. -/
theorem polled_of_noWrite {c : ConfigRecord} {ops : List TransportOp} (h : ∀ op ∈ ops, ∀ a b, op ≠ .wr a b) :
    ∀ x : TraceScan, polled c x ops = true := by
  induction ops with
  | nil => exact fun _ => rfl
  | cons op ops ih =>
    intro x
    have hop : commandAllowed c x op = true := by
      cases op with
      | wr a b => exact absurd rfl (h _ List.mem_cons_self a b)
      | rd a v => rfl
      | failed => rfl
    rw [polled, hop, Bool.true_and]
    exact ih (fun op hop => h op (List.mem_cons_of_mem _ hop)) _

theorem Polls.of_noWrite {α : Type} {p : Proc α} (h : Keeps AddsNoWrite p) (c : ConfigRecord) (x : TraceScan) :
    Polls c x p := by
  intro s _
  obtain ⟨ops, htrace, hops⟩ := h s
  exact ⟨ops, htrace, polled_of_noWrite hops x⟩

/-- The operation a transport operation adds. -/
theorem record_trace (op : TransportOp) {s t : State} (h : (∃ n, t = s.setFreeIx n) ∨ (∃ e, t = s.setEnv e)) :
    (record op t).trace = s.trace ++ [op] := by
  rcases h with ⟨n, rfl⟩ | ⟨e, rfl⟩ <;> rfl

theorem tRead_addsNoWrite : Keeps AddsNoWrite tRead := by
  intro s
  rcases tRead_cases s with ⟨v, -, h⟩ | ⟨-, h⟩ <;> rw [h] <;>
    exact ⟨_, record_trace _ (envRead_cases s), by simp⟩

theorem pollLoop_addsNoWrite (n : Nat) : Keeps AddsNoWrite (pollLoop n) := by
  induction n with
  | zero => exact Keeps.throw (fun _ => .of_trace_eq rfl) _
  | succ n ih =>
    refine tRead_addsNoWrite.bind AddsNoWrite.trans fun v => ?_
    refine (Keeps.modify fun _ => .of_trace_eq (by rfl)).bind AddsNoWrite.trans fun _ => ?_
    refine (Keeps.getConf fun _ => .of_trace_eq rfl).bind AddsNoWrite.trans fun c => ?_
    split
    · exact ih
    · exact Keeps.pure (fun _ => .of_trace_eq rfl) _

/-! ### Bridge commands and the poll -/

/-- The rows that host operations emit, with what is no 1-Wire command among them. -/
structure BridgeRows (c : ConfigRecord) : Prop where
  rows : CommandRows c
  srp : isOneWireCommand c c.cmdSRP = false
  drst : isOneWireCommand c c.cmdDRST = false
  wcfg : isOneWireCommand c c.cmdWCFG = false

theorem bridgeRows {c : ConfigRecord} (hc : codesDistinct c = true) : BridgeRows c := by
  have h : [c.cmdDRST, c.cmdSRP, c.cmdWCFG, c.cmdCHSL, c.cmd1WRS, c.cmd1WWB, c.cmd1WRB, c.cmd1WT, c.cmd1WSB].Nodup :=
    (of_decide_eq_true hc).2.1
  simp only [List.nodup_cons, List.mem_cons, List.not_mem_nil, not_or, or_false, not_false_eq_true] at h
  refine ⟨commandRows hc, ?_, ?_, ?_⟩ <;> simp [isOneWireCommand, h]

section
variable {c : ConfigRecord} {x : TraceScan}

/-- A write the scanner allows; one that fails shows in the trace as no command. -/
theorem tWrite_polls {b : Byte} (hb : commandAllowed c x (.wr 0 b) = true) : Polls c x (tWrite b) := by
  intro s hs
  have allowed (a : Byte) : polled c x [.wr a b] = true := by rw [polled, polled, Bool.and_true]; exact hb
  rcases tWrite_cases b s with ⟨-, h⟩ | ⟨-, h⟩ <;> rw [h]
  · exact ⟨_, record_trace _ (envWrite_cases b s), allowed _⟩
  · exact ⟨_, record_trace _ (envWrite_cases b s), rfl⟩

/-- May the next operation be the write of this command byte? -/
theorem commandAllowed_command (hgap : x.gap = .command) {code : Byte}
    (h : isOneWireCommand c code = false ∨ x.last = .idle) : commandAllowed c x (.wr 0 code) = true := by
  rcases h with h | h <;> simp [commandAllowed, hgap, h]

/-- A parameter byte is no command. -/
theorem cmd1_polls (hgap : x.gap = .command) (hlast : x.last ≠ .noDevice) {code : Byte}
    (hcode : takesParameter c code = true) (h : isOneWireCommand c code = false ∨ x.last = .idle) (p : Byte) :
    Polls c x (cmd1 code p) := by
  refine (tWrite_polls (commandAllowed_command hgap h)).bind (tWrite_mirrors hlast code) ?_
  rintro y - rfl
  refine tWrite_polls ?_
  by_cases hsrp : code = c.cmdSRP <;> simp [commandAllowed, TraceScan.after, hgap, hcode, hsrp]

theorem setPointer_polls (hc : BridgeRows c) (hgap : x.gap = .command) (hlast : x.last ≠ .noDevice) (p : Byte) :
    Polls c x (cmd1 c.cmdSRP p) :=
  cmd1_polls hgap hlast (by simp [takesParameter]) (.inl hc.srp) p

theorem pollUntilIdle_polls (hc : BridgeRows c) (hgap : x.gap = .command) (hlast : x.last ≠ .noDevice) :
    Polls c x pollUntilIdle :=
  .getConf_bind ((setPointer_polls hc hgap hlast _).bind (setPointer_mirrors hgap hlast _)
    fun _ _ _ => .modify_bind (fun _ => ⟨rfl, rfl⟩) (.of_noWrite (pollLoop_addsNoWrite _) _ _))

/-- The scanner after a poll between two primitives. -/
def idleScan : TraceScan := pollScan .busy .idle

theorem idlePoll_mirrors (hx : Settled x) : Mirrors c x pollUntilIdle pollUntilIdle (fun y _ _ => y = idleScan) := by
  refine (pollUntilIdle_mirrors hx.gap hx.last).mono ?_
  rintro y v - ⟨hidle, rfl, -⟩
  simp [pollRead, hidle, hx.flags, idleScan]

theorem idleScan_settled : Settled idleScan := ⟨rfl, nofun, rfl⟩

/-! ### The primitives -/

/-- A bridge command that may be written after an idle poll, whatever its code; the next poll is for `u`. -/
structure AfterIdle (c : ConfigRecord) (u : FlagUse) (cmd : Proc Unit) : Prop where
  polls : Polls c idleScan cmd
  scan : Mirrors c idleScan cmd cmd (fun y _ _ => y = commandScan false u)

theorem cmd0_afterIdle {code : Byte} {u : FlagUse} (h : CodeScan c code false false u) : AfterIdle c u (cmd0 code) where
  polls := tWrite_polls (commandAllowed_command rfl (.inr rfl))
  scan := cmd0_mirrors idleScan_settled.gap idleScan_settled.last h

theorem cmd1_afterIdle {code : Byte} {r : Bool} {u : FlagUse} (h : CodeScan c code true r u) (p : Byte) :
    AfterIdle c u (cmd1 code p) where
  polls := cmd1_polls idleScan_settled.gap idleScan_settled.last h.parameter (.inr rfl) p
  scan := cmd1_mirrors idleScan_settled.gap idleScan_settled.last h p

/-- A bridge command between two polls, and what follows. -/
theorem AfterIdle.between {β : Type} {u : FlagUse} {cmd : Proc Unit} (hcmd : AfterIdle c u cmd) (hc : BridgeRows c)
    (hx : Settled x) {k : Byte → Proc β} (hk : ∀ v, Polls c (pollScan .busy (pollRead c u v)) (k v)) :
    Polls c x (pollUntilIdle >>= fun _ => cmd >>= fun _ => pollUntilIdle >>= k) := by
  refine (pollUntilIdle_polls hc hx.gap hx.last).bind (idlePoll_mirrors hx) ?_
  rintro y - rfl
  refine hcmd.polls.bind hcmd.scan ?_
  rintro y - rfl
  refine (pollUntilIdle_polls hc rfl (commandScan_last _ _)).bind (pollUntilIdle_mirrors rfl (commandScan_last _ _)) ?_
  rintro y v ⟨-, rfl, -⟩
  exact hk v

theorem busReset_polls (hc : BridgeRows c) (hx : Settled x) : Polls c x busReset :=
  .getConf_bind ((cmd0_afterIdle hc.rows.w1rs).between hc hx fun _ => .pure _)

theorem writeByte_polls (hc : BridgeRows c) (hx : Settled x) (b : Byte) : Polls c x (writeByte b) :=
  .getConf_bind ((cmd1_afterIdle hc.rows.w1wb b).between hc hx fun _ => .pure _)

theorem searchTriplet_polls (hc : BridgeRows c) (hx : Settled x) (dir : Bool) : Polls c x (searchTriplet dir) :=
  .getConf_bind ((cmd1_afterIdle hc.rows.w1t _).between hc hx fun _ => .pure _)

theorem readByte_polls (hc : BridgeRows c) (hx : Settled x) : Polls c x readByte := by
  refine .getConf_bind ((cmd0_afterIdle hc.rows.w1rb).between hc hx fun v => ?_)
  have hy : Settled (pollScan .busy (pollRead c .busy v)) := settled_pollScan (u := .busy) nofun v
  exact (setPointer_polls hc hy.gap hy.last _).bind (setPointer_mirrors hy.gap hy.last _)
    fun _ _ _ => .of_noWrite tRead_addsNoWrite _ _

theorem writeBytes_polls (hc : BridgeRows c) (bs : List Byte) : ∀ {x : TraceScan}, Settled x →
    Polls c x (writeBytes bs) := by
  induction bs with
  | nil => exact fun _ => .pure _
  | cons b bs ih => exact fun hx => (writeByte_polls hc hx b).bind (writeByte_mirrors hc.rows hx b) fun _ _ hy => ih hy

theorem matchRom_polls (hc : BridgeRows c) (hx : Settled x) (id : Identifier) : Polls c x (matchRom id) := by
  refine (busReset_polls hc hx).bind (busReset_mirrors hc.rows hx) ?_
  rintro y p ⟨-, hy⟩
  split
  · refine Polls.bind (.getConf_bind ?_) (matchRomBytes_mirrors hc.rows hy id) fun _ _ _ => .pure _
    exact (writeByte_polls hc hy _).bind (writeByte_mirrors hc.rows hy _) fun _ _ hz => writeBytes_polls hc _ hz
  · exact .pure _

/-! ### The search -/

theorem searchStep_polls (hc : BridgeRows c) (hx : Settled x) (p : Nat) (newLd : Int) :
    Polls c x (searchStep p newLd) := by
  refine .modify_bind (fun _ => ⟨rfl, rfl⟩) (.get_bind fun s => ?_)
  refine (searchTriplet_polls hc hx _).bind (searchTriplet_mirrors hc.rows hx _) fun y ⟨idb, cmp⟩ _ => ?_
  dsimp only
  split
  · rw [throw_bind]
    exact .throw _
  · exact .modify_bind (fun _ => ⟨rfl, rfl⟩) (.pure _)

theorem searchSteps_polls (hc : BridgeRows c) (ps : List Nat) : ∀ {x : TraceScan}, Settled x → ∀ newLd,
    Polls c x (searchSteps ps newLd) := by
  induction ps with
  | nil => exact fun _ _ => .pure _
  | cons p ps ih =>
    exact fun hx newLd => (searchStep_polls hc hx p newLd).bind (searchStep_mirrors hc.rows hx p newLd)
      fun _ n hy => ih hy.2 n

theorem searchPass_polls (hc : BridgeRows c) (hx : Settled x) : Polls c x searchPass := by
  refine .getConf_bind ((busReset_polls hc hx).bind (busReset_mirrors hc.rows hx) ?_)
  rintro y p ⟨-, hy⟩
  split
  · refine (writeByte_polls hc hy _).bind (writeByte_mirrors hc.rows hy _) fun z _ hz => ?_
    refine (searchSteps_polls hc _ hz _).bind (searchSteps_mirrors hc.rows _ hz _) fun _ n _ => ?_
    refine .modify_bind (fun s => ?_) (.pure _)
    obtain ⟨l, hs⟩ := searchBookkeeping_writes n s
    rw [hs]
    exact ⟨rfl, rfl⟩
  · exact .pure _

theorem searchLoop_polls (hc : BridgeRows c) (n : Nat) : ∀ {x : TraceScan}, Settled x → Polls c x (searchLoop n) := by
  induction n with
  | zero => exact fun _ => .pure _
  | succ n ih =>
    intro x hx
    refine (searchPass_polls hc hx).bind (searchPass_mirrors hc.rows hx) ?_
    rintro y e ⟨-, hy⟩
    cases e with
    | again => exact ih hy
    | noPresence => exact .pure _
    | last => exact .pure _

theorem searchProc_polls (hc : BridgeRows c) (hx : Settled x) : Polls c x searchProc :=
  .getConf_bind (.modify_bind (fun _ => ⟨rfl, rfl⟩) ((searchLoop_polls hc _ hx).bind (searchLoop_mirrors hc.rows _ hx)
    fun _ _ _ => .get_bind fun _ => .pure _))

/-! ### `INIT` and `SELCH` -/

theorem selchSequence_polls (hc : BridgeRows c) (ch : BitVec 3) : Polls c idleScan (selchSequence ch) := by
  have command := cmd1_afterIdle hc.rows.chsl (channelCode c ch)
  refine .getConf_bind (command.polls.bind command.scan ?_)
  rintro y - rfl
  refine Polls.bind (.of_noWrite tRead_addsNoWrite _ _) (plainRead_mirrors .busy) fun _ e _ => ?_
  split
  · exact .throw _
  · exact .pure _

/-- The poll and the channel-select sequence. -/
theorem select_polls (hc : BridgeRows c) (hx : Settled x) (ch : BitVec 3) :
    Polls c x (pollUntilIdle >>= fun _ => selchSequence ch) := by
  refine (pollUntilIdle_polls hc hx.gap hx.last).bind (idlePoll_mirrors hx) ?_
  rintro y - rfl
  exact selchSequence_polls hc ch

theorem initConfigure_polls (hc : BridgeRows c) (hx : Settled x) (ch : BitVec 3) :
    Polls c x (initConfigure c ch) := by
  refine (cmd1_polls hx.gap hx.last hc.rows.wcfg.parameter (.inl hc.wcfg) _).bind
    (cmd1_mirrors hx.gap hx.last hc.rows.wcfg _) ?_
  rintro y - rfl
  refine Polls.bind (.of_noWrite tRead_addsNoWrite _ _) (plainRead_mirrors .busy) ?_
  rintro y f ⟨rfl, -⟩
  split
  · exact .throw _
  · refine .modify_bind (fun _ => ⟨rfl, rfl⟩) ?_
    split
    · exact select_polls hc (.command false) ch
    · exact .pure _

theorem initBody_polls (hc : BridgeRows c) (hx : Settled x) (ch : BitVec 3) : Polls c x (initBody ch) := by
  rw [initBody_eq]
  refine .getConf_bind (Polls.bind (tWrite_polls (commandAllowed_command hx.gap (.inl hc.drst)))
    (cmd0_mirrors hx.gap hx.last hc.rows.drst) ?_)
  rintro y - rfl
  refine Polls.bind (.of_noWrite tRead_addsNoWrite _ _) (tRead_mirrors (commandScan_last _ _)) ?_
  rintro y v ⟨rfl, -⟩
  split
  · exact .throw _
  · exact initConfigure_polls hc (.command false) ch

end

/-! ### Host operations -/

section
variable {s t : State}

theorem AddsPolled.of_end {c : ConfigRecord} {x : TraceScan} {u : State} (h : AddsPolled c x s t)
    (htrace : u.trace = t.trace) : AddsPolled c x s u := by
  obtain ⟨ops, hops, hpolled⟩ := h
  exact ⟨ops, htrace.trans hops, hpolled⟩

theorem primEnd_polled {α : Type} {allowed : List Mode} {body : Proc α} {finish : α → State → State}
    (hb : Polls s.conf .start body) (hfinish : ∀ v u, (finish v u).trace = u.trace)
    (h : PrimEnd allowed body finish s t) : AddsPolled s.conf .start s t := by
  cases h with
  | refused hm => exact .of_trace_eq rfl
  | ok hm hv => exact (hb.of_ok rfl hv).of_end (hfinish _ _)
  | err hm he => exact (hb.of_error rfl he).of_end (takeError_trace _ _ _)

theorem execInit_polled (hc : BridgeRows s.conf) {addr ch : Byte} (h : exec (.init addr ch) s = .next t) :
    AddsPolled s.conf .start s t := by
  obtain rfl := Host.Outcome.next.inj h
  split
  · have body := initBody_polls hc .start (channelBits ch)
    unfold initAccepted
    split
    next hu => exact (body.of_ok (by rfl) hu).of_end rfl
    next hu => exact (body.of_error (by rfl) hu).of_end (takeError_trace _ _ _)
  · exact .of_trace_eq rfl

theorem execSelch_polled (hc : BridgeRows s.conf) {ch : Byte} (h : exec (.selch ch) s = .next t) :
    AddsPolled s.conf .start s t := by
  obtain rfl := Host.Outcome.next.inj h
  split
  · split
    · unfold selchReady
      split
      · exact .of_trace_eq rfl
      · have body := select_polls hc .start (channelBits ch)
        rcases selchMulti_cases ch s with ⟨u, hu, h⟩ | ⟨site, e, u, hu, h, -⟩ <;> rw [h]
        · exact (body.of_ok rfl hu).of_end rfl
        · exact (body.of_error rfl hu).of_end (takeError_trace _ _ _)
    · exact .of_trace_eq rfl
  · exact .of_trace_eq rfl

theorem execSearch_polled (hc : BridgeRows s.conf) (h : exec .search s = .next t) : AddsPolled s.conf .start s t := by
  have body := searchProc_polls hc .start
  rcases execSearch_cases h with ⟨-, rfl⟩ | ⟨-, u, hu, rfl⟩ | ⟨-, e, u, hu, rfl⟩
  · exact .of_trace_eq rfl
  · exact (body.of_ok rfl hu).of_end rfl
  · exact (body.of_error rfl hu).of_end (takeError_trace _ _ _)

theorem exec_polled (hc : BridgeRows s.conf) {i : Instr} (hi : isHostOp i = true) (h : exec i s = .next t) :
    AddsPolled s.conf .start s t := by
  have prim {β : Type} (value : β → Value) {body : Proc β} (hb : Polls s.conf .start body) :
      AddsPolled s.conf .start s (endPrim value (hostPrim [.ready] body s)) :=
    primEnd_polled hb (by simp [deliver]) (endPrim_primEnd [.ready] body value s)
  cases i with
  | init addr ch => exact execInit_polled hc h
  | selch ch => exact execSelch_polled hc h
  | owreset => exact primEnd_polled (busReset_polls hc .start) (by simp [deliver, recover]) (execOwreset_primEnd h)
  | owwrite b => exact Host.Outcome.next.inj h ▸ prim _ (writeByte_polls hc .start b)
  | owread => exact Host.Outcome.next.inj h ▸ prim _ (readByte_polls hc .start)
  | matchrom id => exact Host.Outcome.next.inj h ▸ prim _ (matchRom_polls hc .start id)
  | search => exact execSearch_polled hc h
  | crc8 data => exact Host.Outcome.next.inj h ▸ .of_trace_eq rfl
  | _ => simp [isHostOp, opOf, formatOf] at hi

end

/-- Settles O12: every body a host operation runs polls before its 1-Wire commands. -/
theorem oneWireCommandsFollowAnIdlePoll : Obligations.OneWireCommandsFollowAnIdlePoll :=
  fun _ _ _ hi hc h => exec_polled (bridgeRows hc) hi h

end Sys2Proof.Machine
end

section
/-! PROOFS. Runs on scripted answers: the poll that ends (`40_bridge_controller.md` R101, R102), the byte write
(`41_onewire_bus.md` R132), and the ROM commands run as steps (`30_encoding.md` R92). -/

namespace Sys2Proof.Machine

open Sys2Proof.Safety

/-! ### Scripted polls -/

/-- Of two runs the second says what the last poll was. -/
theorem afterPolls_afterPolls (s : State) (ops ops' : List TransportOp) (r r' : PollRun) (rest rest' : List Answer) :
    afterPolls (afterPolls s ops r rest) ops' r' rest' = afterPolls s (ops ++ ops') r' rest' := by
  simp [afterPolls, List.append_assoc]

/-- `s` after one status read of a poll that answered `v`, with the answers `rest` still to come. -/
def afterStatusRead (s : State) (v : Byte) (rest : List Answer) : State :=
  { s with st := v, pollcnt := s.pollcnt + 1, env := .script rest, trace := s.trace ++ [.rd s.addr v] }

/-- One status read of the loop: the loop goes on while the answer is busy. -/
theorem pollLoop_succ_script {s : State} {v : Byte} {rest : List Answer} (henv : s.env = .script (.ack v :: rest))
    (n : Nat) : pollLoop (n + 1) s =
      if busyFlag s.conf v then pollLoop n (afterStatusRead s v rest) else .ok v (afterStatusRead s v rest) := by
  rw [pollLoop, bind_of_ok (tRead_script henv), bind_of_ok (modify_run _ _), bind_of_ok (getConf_run _)]
  change (if busyFlag s.conf v then _ else _ : Proc Byte) (afterStatusRead s v rest) = _
  split <;> rfl

/-- The loop reads the busy status bytes and then the one that ends it. -/
theorem pollLoop_script {idle : Byte} {rest : List Answer} (busy : List Byte) : ∀ {s : State} {n : Nat},
    (∀ v ∈ busy, busyFlag s.conf v = true) → busyFlag s.conf idle = false → busy.length < n →
    s.env = .script (busy.map .ack ++ .ack idle :: rest) →
    pollLoop n s = .ok idle { s with
      st := idle, pollcnt := s.pollcnt + (busy.length + 1), env := .script rest
      trace := s.trace ++ (busy.map (.rd s.addr) ++ [.rd s.addr idle]) } := by
  induction busy with
  | nil =>
    intro s n _ hidle hn henv
    obtain ⟨n, rfl⟩ := Nat.exists_eq_succ_of_ne_zero hn.ne'
    rw [pollLoop_succ_script henv, hidle]
    rfl
  | cons v busy ih =>
    intro s n hbusy hidle hn henv
    obtain ⟨n, rfl⟩ := Nat.exists_eq_succ_of_ne_zero (Nat.ne_zero_of_lt hn)
    obtain ⟨hv, hbusy⟩ := List.forall_mem_cons.1 hbusy
    rw [pollLoop_succ_script henv, hv, if_pos rfl]
    refine Eq.trans (ih hbusy hidle (Nat.lt_of_succ_lt_succ hn) rfl) ?_
    simp [afterStatusRead]
    omega

/-- `s` after a bridge command with a parameter, with the answers `rest` still to come. -/
def afterCommand (s : State) (code p : Byte) (rest : List Answer) : State :=
  { s with env := .script rest, trace := s.trace ++ [.wr s.addr code, .wr s.addr p] }

/-- A bridge command with a parameter, both bytes acknowledged. -/
theorem cmd1_script {s : State} {code p v w : Byte} {rest : List Answer}
    (henv : s.env = .script (.ack v :: .ack w :: rest)) :
    cmd1 code p s = .ok () (afterCommand s code p rest) := by
  rw [cmd1, bind_of_ok (tWrite_script henv), tWrite_script rfl]
  simp [afterCommand, record, State.setTrace, State.setEnv]

/-- A poll that ends returns its last status byte (`40_bridge_controller.md` R101, R102). -/
theorem pollUntilIdle_script {s : State} {r : PollRun} {rest : List Answer} (hr : r.ok s.conf)
    (henv : s.env = .script (r.answers ++ rest)) :
    pollUntilIdle s = .ok r.idle (afterPolls s (r.trace s.conf s.addr) r rest) := by
  obtain ⟨hbusy, hlen, hidle⟩ := hr
  have henv' : s.env = .script (.ack r.srp :: .ack r.ptr :: (r.busy.map .ack ++ .ack r.idle :: rest)) := by
    rw [henv, PollRun.answers]
    simp
  rw [pollUntilIdle, bind_of_ok (getConf_run s), bind_of_ok (cmd1_script henv'), bind_of_ok (modify_run _ _)]
  refine Eq.trans (pollLoop_script r.busy hbusy hidle hlen rfl) ?_
  simp [afterPolls, afterCommand, PollRun.trace, State.setPollcnt]

/-! ### Scripted byte writes -/

/-- A bridge command with a parameter between two polls that end. -/
theorem commandBetweenPolls_script {α : Type} {s : State} {w : WriteRun} {rest : List Answer} (hw : w.ok s.conf)
    (henv : s.env = .script (w.answers ++ rest)) (code p : Byte) (k : Byte → Proc α) :
    (pollUntilIdle >>= fun _ => cmd1 code p >>= fun _ => pollUntilIdle >>= k) s =
      k w.after.idle (afterPolls s (w.trace s.conf s.addr code p) w.after rest) := by
  have henv' : s.env = .script (w.before.answers ++ (.ack w.cmd :: .ack w.param :: (w.after.answers ++ rest))) := by
    rw [henv, WriteRun.answers]
    simp
  obtain ⟨hbefore, hafter⟩ := hw
  rw [bind_of_ok (pollUntilIdle_script hbefore henv'), bind_of_ok (cmd1_script rfl)]
  refine Eq.trans (bind_of_ok (pollUntilIdle_script (s := afterCommand (afterPolls s _ _ _) _ _ _) hafter rfl) k) ?_
  simp [afterPolls, afterCommand, WriteRun.trace]

/-- `writeByte_proc` (`41_onewire_bus.md` R132). -/
theorem writeByte_script {s : State} {w : WriteRun} {rest : List Answer} (hw : w.ok s.conf)
    (henv : s.env = .script (w.answers ++ rest)) (b : Byte) :
    writeByte b s = .ok () (afterPolls s (w.trace s.conf s.addr s.conf.cmd1WWB b) w.after rest) := by
  rw [writeByte, bind_of_ok (getConf_run s), commandBetweenPolls_script hw henv]
  rfl

/-- One byte write after the other: `ST` and `POLLCNT` are of the last poll. -/
theorem writeBytes_script {last : WriteRun} {rest : List Answer} (ws : List WriteRun) : ∀ {bs : List Byte} {s : State},
    bs.length = ws.length + 1 → (∀ w ∈ ws, w.ok s.conf) → last.ok s.conf →
    s.env = .script (ws.flatMap WriteRun.answers ++ (last.answers ++ rest)) →
    writeBytes bs s =
      .ok () (afterPolls s (writesTrace s.conf s.addr bs (ws ++ [last])) last.after rest) := by
  induction ws with
  | nil =>
    intro bs s hlen _ hlast henv
    obtain ⟨b, rfl⟩ := List.length_eq_one_iff.1 hlen
    rw [writeBytes, bind_of_ok (writeByte_script hlast henv b)]
    simp [writeBytes, writesTrace]
  | cons w ws ih =>
    intro bs s hlen hws hlast henv
    obtain ⟨hw, hws⟩ := List.forall_mem_cons.1 hws
    match bs, hlen with
    | b :: bs, hlen =>
      rw [List.flatMap_cons, List.append_assoc] at henv
      rw [writeBytes, bind_of_ok (writeByte_script hw henv b)]
      refine Eq.trans (ih (Nat.succ.inj hlen) hws hlast rfl) ?_
      rw [afterPolls_afterPolls]
      rfl

/-- The Match-ROM command byte is written as the eight identifier bytes are (`41_onewire_bus.md` R136). -/
theorem matchRomBytes_eq (id : Identifier) (s : State) :
    matchRomBytes id s = writeBytes (s.conf.romMatch :: id.toList) s := by
  rw [matchRomBytes, bind_of_ok (getConf_run s)]
  rfl

/-- Settles O47: a fragment in `UNINIT` is refused; in the other modes the byte writes run as the script answers. -/
theorem romCommandsSendTheirBytes : Obligations.RomCommandsSendTheirBytes := by
  refine ⟨fun s i hi hm => ?_, fun s w rest hm hw henv => ?_, fun s id ws last rest hm hlen hws hlast henv => ?_⟩
  · rcases hi with rfl | ⟨id, rfl⟩ <;> exact congrArg Host.Outcome.next (runFragment_uninit _ hm)
  · exact congrArg Host.Outcome.next (runFragment_of_ok hm (writeByte_script hw henv _))
  · refine congrArg Host.Outcome.next (runFragment_of_ok hm ?_)
    rw [matchRomBytes_eq]
    exact writeBytes_script ws (by simp [hlen]) hws hlast henv

end Sys2Proof.Machine
end

section
/-! PROOFS. The poll: on a script it returns or times out (`40_bridge_controller.md` R101, R102), and on every
environment it makes at most `POLL_MAX` status reads. -/

namespace Sys2Proof.Machine

open Sys2Proof.Safety

/-! ### On a script -/

/-- Settles O27: the run of the poll on the answers of `r`. -/
theorem pollReturnsFirstIdleStatus : Obligations.PollReturnsFirstIdleStatus :=
  fun _ _ _ hr henv => pollUntilIdle_script hr henv

/-- The loop has no read left after as many busy status bytes. -/
theorem pollLoop_script_timeout {rest : List Answer} (busy : List Byte) : ∀ {s : State},
    (∀ v ∈ busy, busyFlag s.conf v = true) → s.env = .script (busy.map .ack ++ rest) →
    pollLoop busy.length s = .error .timeout { s with
      st := busy.getLastD s.st, pollcnt := s.pollcnt + busy.length, env := .script rest
      trace := s.trace ++ busy.map (.rd s.addr) } := by
  induction busy with
  | nil =>
    intro s _ henv
    simp only [List.length_nil, pollLoop, throw_run, List.map_nil, List.append_nil, List.getLastD_nil, Nat.add_zero]
    rw [← (show s.env = .script rest from henv)]
  | cons v busy ih =>
    intro s hbusy henv
    obtain ⟨hv, hbusy⟩ := List.forall_mem_cons.1 hbusy
    rw [List.length_cons, pollLoop_succ_script henv, hv, if_pos rfl]
    refine Eq.trans (ih hbusy rfl) ?_
    simp [afterStatusRead, List.getLast?_cons, Nat.add_assoc, Nat.add_comm 1]

/-- A poll that times out: its two writes and `POLL_MAX` busy reads (`40_bridge_controller.md` R101, R102). -/
theorem pollUntilIdle_script_timeout {s : State} {w₁ w₂ : Byte} {busy : List Byte} {rest : List Answer}
    (hbusy : ∀ v ∈ busy, busyFlag s.conf v = true) (hlen : busy.length = s.conf.pollMax)
    (henv : s.env = .script (.ack w₁ :: .ack w₂ :: (busy.map .ack ++ rest))) :
    pollUntilIdle s = .error .timeout { s with
      st := busy.getLastD s.st, pollcnt := s.conf.pollMax, env := .script rest
      trace := s.trace ++ (.wr s.addr s.conf.cmdSRP :: .wr s.addr s.conf.ptrStatus :: busy.map (.rd s.addr)) } := by
  rw [pollUntilIdle, bind_of_ok (getConf_run s), bind_of_ok (cmd1_script henv), bind_of_ok (modify_run _ _), ← hlen]
  refine Eq.trans (pollLoop_script_timeout busy hbusy rfl) ?_
  simp [afterCommand, State.setPollcnt]

/-- Settles O28: `busy` and `last` are the `POLL_MAX` busy reads. -/
theorem pollTimesOutAfterPollMaxReads : Obligations.PollTimesOutAfterPollMaxReads := by
  intro s w₁ w₂ last busy rest hbusy hlen henv
  rw [pollUntilIdle_script_timeout hbusy (by simpa using hlen) henv]
  simp

/-! ### On every environment -/

/-- From `s` to `t` the loop read the status bytes `vs`. -/
structure StatusReads (s : State) (vs : List Byte) (t : State) : Prop where
  conf : t.conf = s.conf
  addr : t.addr = s.addr
  st : t.st = vs.getLastD s.st
  pollcnt : t.pollcnt = s.pollcnt + vs.length
  trace : t.trace = s.trace ++ vs.map (.rd s.addr)

theorem StatusReads.refl (s : State) : StatusReads s [] s := ⟨rfl, rfl, rfl, rfl, by simp⟩

theorem StatusReads.trans {s t u : State} {vs ws : List Byte} (h : StatusReads s vs t) (k : StatusReads t ws u) :
    StatusReads s (vs ++ ws) u where
  conf := k.conf.trans h.conf
  addr := k.addr.trans h.addr
  st := by rw [k.st, h.st]; cases ws using List.reverseRecOn <;> simp [← List.append_assoc]
  pollcnt := by rw [k.pollcnt, h.pollcnt, List.length_append, Nat.add_assoc]
  trace := by rw [k.trace, h.trace, h.addr, List.map_append, List.append_assoc]

/-- From `s` a transport operation failed, and the run ended in `t`. -/
structure FailedOperation (s t : State) : Prop where
  pollcnt : t.pollcnt = s.pollcnt
  trace : t.trace = s.trace ++ [.failed]

theorem record_failedOperation {s t : State} (h : (∃ n, t = s.setFreeIx n) ∨ (∃ e, t = s.setEnv e)) :
    FailedOperation s (record .failed t) :=
  ⟨(record_frame _ h).pollcnt, record_trace _ h⟩

/-- One status read of the loop: it returns a byte, and the loop goes on while the byte is busy, or it fails. -/
theorem pollLoop_succ_cases (n : Nat) (s : State) :
    (∃ v t, StatusReads s [v] t ∧ pollLoop (n + 1) s = if busyFlag s.conf v then pollLoop n t else .ok v t) ∨
      ∃ t, FailedOperation s t ∧ pollLoop (n + 1) s = .error .transport t := by
  rw [pollLoop]
  rcases tRead_cases s with ⟨v, -, hread⟩ | ⟨-, hread⟩
  · have hframe := record_frame (.rd s.addr v) (envRead_cases s)
    have hcnt : (record (.rd s.addr v) (envRead s).2).pollcnt + 1 = s.pollcnt + 1 := congrArg (· + 1) hframe.pollcnt
    refine .inl ⟨v, ((record (.rd s.addr v) (envRead s).2).setSt v).setPollcnt _,
      ⟨hframe.conf, hframe.addr, rfl, hcnt, record_trace _ (envRead_cases s)⟩, ?_⟩
    rw [bind_of_ok hread, bind_of_ok (modify_run _ _), bind_of_ok (getConf_run _)]
    simp only [State.setPollcnt_conf, State.setSt_conf, hframe.conf]
    split <;> rfl
  · exact .inr ⟨_, record_failedOperation (envRead_cases s), bind_of_error hread _⟩

/-- How the loop ends after some busy reads: with the first status byte that is not busy, with a timeout when no read is
left, or with a read that failed. -/
inductive PollLoopEnds (n : Nat) (s : State) (busy : List Byte) (u : State) : EStateM.Result Err State Byte → Prop where
  | idle {v : Byte} {t : State} (hlen : busy.length < n) (hv : busyFlag s.conf v = false) (ht : StatusReads u [v] t) :
    PollLoopEnds n s busy u (.ok v t)
  | timeout (hlen : busy.length = n) : PollLoopEnds n s busy u (.error .timeout u)
  | transport {t : State} (hlen : busy.length < n) (ht : FailedOperation u t) :
    PollLoopEnds n s busy u (.error .transport t)

/-- One more busy read before those of the loop that follows. -/
theorem PollLoopEnds.after_busy {n : Nat} {s t : State} {v : Byte} {busy : List Byte} {u : State}
    {r : EStateM.Result Err State Byte} (hconf : t.conf = s.conf) (h : PollLoopEnds n t busy u r) :
    PollLoopEnds (n + 1) s (v :: busy) u r := by
  cases h with
  | idle hlen hv ht => exact .idle (Nat.succ_lt_succ hlen) (hconf ▸ hv) ht
  | timeout hlen => exact .timeout (congrArg (· + 1) hlen)
  | transport hlen ht => exact .transport (Nat.succ_lt_succ hlen) ht

theorem pollLoop_ends (n : Nat) : ∀ s, ∃ busy u, (∀ w ∈ busy, busyFlag s.conf w = true) ∧ StatusReads s busy u ∧
    PollLoopEnds n s busy u (pollLoop n s) := by
  induction n with
  | zero => exact fun s => ⟨[], s, nofun, .refl s, .timeout rfl⟩
  | succ n ih =>
    intro s
    rcases pollLoop_succ_cases n s with ⟨v, t, ht, hrun⟩ | ⟨t, ht, hrun⟩ <;> rw [hrun]
    · split
      next hv =>
        obtain ⟨busy, u, hbusy, hu, hend⟩ := ih t
        rw [ht.conf] at hbusy
        exact ⟨v :: busy, u, List.forall_mem_cons.2 ⟨hv, hbusy⟩, ht.trans hu, hend.after_busy ht.conf⟩
      next hv => exact ⟨[], s, nofun, .refl s, .idle n.succ_pos (by simpa using hv) ht⟩
    · exact ⟨[], s, nofun, .refl s, .transport n.succ_pos ht⟩

/-- The two writes of a bridge command with a parameter go through, or the first fails, or the second. -/
theorem cmd1_cases (code p : Byte) (s : State) :
    (∃ t, cmd1 code p s = .ok () t ∧ t.trace = s.trace ++ [.wr s.addr code, .wr s.addr p]) ∨
      ∃ t, cmd1 code p s = .error .transport t ∧
        (t.trace = s.trace ++ [.failed] ∨ t.trace = s.trace ++ [.wr s.addr code, .failed]) := by
  rcases tWrite_cases code s with ⟨-, hfirst⟩ | ⟨-, hfirst⟩
  · have hframe := record_frame (.wr s.addr code) (envWrite_cases code s)
    have htrace := record_trace (.wr s.addr code) (envWrite_cases code s)
    rw [cmd1, bind_of_ok hfirst]
    rcases tWrite_cases p (record (.wr s.addr code) (envWrite code s).2) with ⟨-, hsecond⟩ | ⟨-, hsecond⟩
    · exact .inl ⟨_, hsecond, by rw [record_trace _ (envWrite_cases _ _), htrace, hframe.addr]; simp⟩
    · exact .inr ⟨_, hsecond, .inr (by rw [record_trace _ (envWrite_cases _ _), htrace]; simp)⟩
  · exact .inr ⟨_, bind_of_error hfirst _, .inl (record_trace _ (envWrite_cases code s))⟩

/-- From `s` the poll made its two writes and `POLLCNT` is zero in `t`. -/
structure PollBegun (s t : State) : Prop where
  conf : t.conf = s.conf
  addr : t.addr = s.addr
  pollcnt : t.pollcnt = 0
  trace : t.trace = s.trace ++ [.wr s.addr s.conf.cmdSRP, .wr s.addr s.conf.ptrStatus]

/-- How a poll ends: at its writes, or as its loop of at most `POLL_MAX` reads does. -/
theorem pollUntilIdle_ends (s : State) :
    (∃ t, pollUntilIdle s = .error .transport t ∧
      (t.trace = s.trace ++ [.failed] ∨ t.trace = s.trace ++ [.wr s.addr s.conf.cmdSRP, .failed])) ∨
    ∃ t busy u, PollBegun s t ∧ (∀ w ∈ busy, busyFlag s.conf w = true) ∧ StatusReads t busy u ∧
      PollLoopEnds s.conf.pollMax t busy u (pollUntilIdle s) := by
  rw [pollUntilIdle, bind_of_ok (getConf_run s)]
  rcases cmd1_cases s.conf.cmdSRP s.conf.ptrStatus s with ⟨t, hrun, htrace⟩ | ⟨t, hrun, htrace⟩
  · have hframe := (cmd1_keeps _ _).of_ok hrun
    obtain ⟨busy, u, hbusy, hu, hend⟩ := pollLoop_ends s.conf.pollMax (t.setPollcnt 0)
    rw [bind_of_ok hrun, bind_of_ok (modify_run _ _)]
    exact .inr ⟨t.setPollcnt 0, busy, u, ⟨hframe.conf, hframe.addr, rfl, htrace⟩, hframe.conf ▸ hbusy, hu, hend⟩
  · exact .inl ⟨t, bind_of_error hrun _, htrace⟩

/-- Settles O29: the ends of a poll, one by one. -/
theorem pollReadsAreBounded : Obligations.PollReadsAreBounded := by
  intro s
  rcases pollUntilIdle_ends s with ⟨t, hrun, htrace⟩ | ⟨t, busy, u, hbegun, hbusy, hreads, hend⟩
  · refine ⟨fun v t' h => ?_, fun e t' h => ?_⟩ <;> cases hrun.symm.trans h
    exact .inr ⟨rfl, htrace.imp_right .inl⟩
  · obtain ⟨hconf, haddr, hcnt, htrace⟩ := hbegun
    obtain ⟨-, huaddr, hust, hucnt, hutrace⟩ := hreads
    refine ⟨fun v t' h => ?_, fun e t' h => ?_⟩ <;> rw [h] at hend
    · cases hend with
      | idle hlen hv ht =>
        obtain ⟨-, -, hst, hcnt', htrace'⟩ := ht
        refine ⟨hconf ▸ hv, hst, busy, hbusy, hlen, by simp [hcnt', hucnt, hcnt], ?_⟩
        simp [htrace', hutrace, huaddr, haddr, htrace]
    · cases hend with
      | timeout hlen =>
        refine .inl ⟨rfl, busy, hbusy, hlen, by simp [hucnt, hcnt], fun w hw => ?_, ?_⟩
        · simp [hust, List.getLastD_eq_getLast?, hw]
        · simp [hutrace, haddr, htrace]
      | transport hlen ht =>
        obtain ⟨hcnt', htrace'⟩ := ht
        refine .inr ⟨rfl, .inr (.inr ⟨busy, hbusy, hlen, by simp [hcnt', hucnt, hcnt], ?_⟩)⟩
        simp [htrace', hutrace, haddr, htrace]

end Sys2Proof.Machine
end

section
/-! PROOFS. `INIT` and `SELCH` (`40_bridge_controller.md` R104 to R113): how each ends, for every environment, and their
runs on scripted answers; the bridge commands run as steps of their own (R103). -/

namespace Sys2Proof.Machine

open Sys2Proof.Safety

/-! ### Operands -/

theorem addrBits_eq_self {c : ConfigRecord} {addr : Byte} (h : addr.toNat < 2 ^ c.addrW) : addrBits c addr = addr := by
  rw [addrBits, Nat.mod_eq_of_lt h, BitVec.ofNat_toNat, BitVec.setWidth_eq]

theorem channelBits_eq_ofNat {ch : Byte} {k : Fin 8} (h : ch.toNat = k.val) :
    channelBits ch = BitVec.ofNat 3 k.val := by
  rw [channelBits, h]

theorem channelEcho_ofNat (c : ConfigRecord) (k : Fin 8) : channelEcho c (BitVec.ofNat 3 k.val) = c.checho.get k := by
  have hk : (BitVec.ofNat 3 k.val).toFin = k := Fin.ext (Nat.mod_eq_of_lt k.isLt)
  rw [channelEcho, hk]

theorem nch_single {c : ConfigRecord} (h : c.variant = .single) : nch c = 1 := by rw [nch, h]

theorem nch_multi8 {c : ConfigRecord} (h : c.variant = .multi8) : nch c = 8 := by rw [nch, h]

/-! ### The ends of `INIT` -/

section
variable {s t : State} {addr ch : Byte} (haddr : addr.toNat < 2 ^ s.conf.addrW) (hch : ch.toNat < nch s.conf)
include haddr hch

/-- With legal operands `INIT` runs its body in `UNINIT` with the new `ADDR` (`40_bridge_controller.md` R104). -/
theorem execInit_accepted : exec (.init addr ch) s = .next (initAccepted addr ch s) := by
  have hlegal : initOperandsLegal s.conf addr ch = true := by
    simp [initOperandsLegal, addrLegal, channelLegal, haddr, hch]
  exact congrArg Host.Outcome.next (if_pos hlegal)

theorem execInit_of_ok (h : initBody (channelBits ch) ((s.setMode .uninit).setAddr addr) = .ok () t) :
    exec (.init addr ch) s = .next (deliver (.ok .none) (recover (t.setCh (channelBits ch)))) := by
  rw [execInit_accepted haddr hch, initAccepted, addrBits_eq_self haddr, h]

theorem execInit_of_error {e : Err} (h : initBody (channelBits ch) ((s.setMode .uninit).setAddr addr) = .error e t) :
    exec (.init addr ch) s = .next (takeError .init e t) := by
  rw [execInit_accepted haddr hch, initAccepted, addrBits_eq_self haddr, h]

end

/-- Settles O32: the body returns or raises, and leaves what `InitFrame` says. -/
theorem initEndsReadyOrUninit : Obligations.InitEndsReadyOrUninit := by
  intro s addr ch haddr hch
  cases hbody : initBody (channelBits ch) ((s.setMode .uninit).setAddr addr) with
  | ok _ t =>
    have hf := (initBody_keeps _).of_ok hbody
    exact ⟨_, execInit_of_ok haddr hch hbody, hf.addr, hf.ld, hf.cand, hf.res, hf.pos, hf.conf, hf.inbox,
      .inl ⟨rfl, rfl, channelBits_toNat hch, (initBody_ok_cfg hbody :)⟩⟩
  | error e t =>
    have hf := (initBody_keeps _).of_error hbody
    refine ⟨_, execInit_of_error haddr hch hbody, ?_, ?_, ?_, ?_, ?_, ?_, ?_, .inr ⟨rfl, rfl⟩⟩ <;>
      simp [hf.addr, hf.ld, hf.cand, hf.res, hf.pos, hf.conf, hf.inbox]

/-! ### `INIT` on a script -/

/-- `INIT` up to the configuration read-back (`40_bridge_controller.md` R104 to R107). -/
def initConfirm (c : ConfigRecord) : Proc Unit := do
  cmd0 c.cmdDRST
  let s ← tRead
  if !initStatusOk c s then throw .initialization
  else
    cmd1 c.cmdWCFG c.cfgInitW
    let f ← tRead
    if f ≠ c.cfgInit then throw .initialization

/-- `INIT` confirms status and configuration, and then selects the channel. -/
theorem initBody_eq_confirm (ch : BitVec 3) :
    initBody ch = (getConf >>= fun c => initConfirm c >>= fun _ => initSelect c ch c.cfgInit) := by
  rw [initBody_eq]
  refine congrArg (getConf >>= ·) (funext fun c => ?_)
  simp only [initConfirm, bind_assoc]
  refine congrArg (cmd0 c.cmdDRST >>= ·) (funext fun _ => congrArg (tRead >>= ·) (funext fun v => ?_))
  split
  · rfl
  · simp only [initConfigure, bind_assoc]
    refine congrArg (cmd1 c.cmdWCFG c.cfgInitW >>= ·) (funext fun _ => congrArg (tRead >>= ·) (funext fun f => ?_))
    by_cases hf : f = c.cfgInit
    · simp [hf]
    · simp [hf, throw_bind]

/-- `s` after the acknowledged operations `ops`, with the answers `rest` still to come. -/
def afterOps (s : State) (ops : List TransportOp) (rest : List Answer) : State :=
  { s with env := .script rest, trace := s.trace ++ ops }

/-- The answers that `INIT` expects of the status register and the configuration register. -/
theorem initConfirm_script {s : State} {status w₁ w₂ w₃ : Byte} {rest : List Answer}
    (hstatus : initStatusOk s.conf status = true)
    (henv : s.env = .script (.ack w₁ :: .ack status :: .ack w₂ :: .ack w₃ :: .ack s.conf.cfgInit :: rest)) :
    initConfirm s.conf s = .ok () (afterOps s (initTraceConfig s.conf s.addr status s.conf.cfgInit) rest) := by
  rw [initConfirm, cmd0, bind_of_ok (tWrite_script henv), bind_of_ok (tRead_script rfl), if_neg (by simp [hstatus]),
    bind_of_ok (cmd1_script rfl), bind_of_ok (tRead_script rfl), if_neg (not_not.2 rfl)]
  simp [afterOps, afterCommand, record, State.setTrace, State.setEnv, initTraceConfig]

/-- The channel-select sequence compares the echo (`40_bridge_controller.md` R112). -/
theorem selchSequence_script {s : State} {w₁ w₂ e : Byte} {rest : List Answer} (k : Fin 8)
    (henv : s.env = .script (.ack w₁ :: .ack w₂ :: .ack e :: rest)) :
    selchSequence (BitVec.ofNat 3 k.val) s =
      if e ≠ s.conf.checho.get k then .error .initialization (afterOps s (selchTrace s.conf s.addr k e) rest)
      else .ok () (afterOps s (selchTrace s.conf s.addr k e) rest) := by
  rw [selchSequence, bind_of_ok (getConf_run s), channelCode_ofNat, channelEcho_ofNat, bind_of_ok (cmd1_script henv),
    bind_of_ok (tRead_script rfl)]
  have hafter : record (.rd s.addr e) ((afterCommand s s.conf.cmdCHSL (s.conf.chcode.get k) (.ack e :: rest)).setEnv
      (.script rest)) = afterOps s (selchTrace s.conf s.addr k e) rest := by
    simp [afterOps, afterCommand, record, State.setTrace, State.setEnv, selchTrace]
  rw [← hafter]
  split <;> rfl

/-- The poll and the channel-select sequence for channel `k`, on a script that echoes `e`. -/
theorem pollThenSelect_script {s : State} {w₁ w₂ e : Byte} {r : PollRun} {rest : List Answer} (k : Fin 8)
    (hr : r.ok s.conf)
    (henv : s.env = .script (r.answers ++ .ack w₁ :: .ack w₂ :: .ack e :: rest)) :
    ∃ t, pollUntilIdle s = .ok r.idle t ∧ selchSequence (BitVec.ofNat 3 k.val) t =
      if e ≠ s.conf.checho.get k then
        .error .initialization (afterPolls s (r.trace s.conf s.addr ++ selchTrace s.conf s.addr k e) r rest)
      else .ok () (afterPolls s (r.trace s.conf s.addr ++ selchTrace s.conf s.addr k e) r rest) := by
  refine ⟨_, pollUntilIdle_script hr henv, ?_⟩
  rw [selchSequence_script k rfl]
  simp [afterOps, afterPolls]

/-- The status test of `INIT`, as `40_bridge_controller.md` R106 writes it. -/
theorem initStatusOk_iff {c : ConfigRecord} {v : Byte} : initStatusOk c v = true ↔ v &&& c.initMask = c.initValue := by
  simp [initStatusOk]

section
variable {s : State} {ch : BitVec 3} {status w₁ w₂ w₃ : Byte} {rest : List Answer}
  (hstatus : initStatusOk s.conf status = true)
include hstatus

/-- On `SINGLE` there is no channel selection. -/
theorem initBody_single_script (hv : s.conf.variant = .single)
    (henv : s.env = .script (.ack w₁ :: .ack status :: .ack w₂ :: .ack w₃ :: .ack s.conf.cfgInit :: rest)) :
    initBody ch s =
      .ok () ((afterOps s (initTraceConfig s.conf s.addr status s.conf.cfgInit) rest).setCfg s.conf.cfgInit) := by
  rw [initBody_eq_confirm, bind_of_ok (getConf_run s), bind_of_ok (initConfirm_script hstatus henv), initSelect,
    bind_of_ok (modify_run _ _)]
  simp [hv]

/-- On `MULTI8` a poll and the channel-select sequence follow (`40_bridge_controller.md` R108). -/
theorem initBody_multi8_script {w₄ w₅ : Byte} {r : PollRun} {k : Fin 8} (hv : s.conf.variant = .multi8)
    (hr : r.ok s.conf)
    (henv : s.env = .script (.ack w₁ :: .ack status :: .ack w₂ :: .ack w₃ :: .ack s.conf.cfgInit ::
      (r.answers ++ .ack w₄ :: .ack w₅ :: .ack (s.conf.checho.get k) :: rest))) :
    initBody (BitVec.ofNat 3 k.val) s = .ok () ((afterPolls s (initTraceConfig s.conf s.addr status s.conf.cfgInit ++
      r.trace s.conf s.addr ++ selchTrace s.conf s.addr k (s.conf.checho.get k)) r rest).setCfg s.conf.cfgInit) := by
  obtain ⟨t, hpoll, hsequence⟩ := pollThenSelect_script (s := (afterOps s
    (initTraceConfig s.conf s.addr status s.conf.cfgInit) _).setCfg s.conf.cfgInit) k hr rfl
  rw [initBody_eq_confirm, bind_of_ok (getConf_run s), bind_of_ok (initConfirm_script hstatus henv), initSelect,
    bind_of_ok (modify_run _ _), if_pos hv, bind_of_ok hpoll]
  refine hsequence.trans ((if_neg (not_not.2 rfl)).trans ?_)
  simp [afterOps, afterPolls, State.setCfg]

end

/-- Settles O30: the run of `INIT` on `SINGLE`. -/
theorem initOnSingleSucceeds : Obligations.InitOnSingleSucceeds := by
  intro s addr ch status w₁ w₂ w₃ rest hv haddr hch hstatus henv
  subst hch
  rw [execInit_of_ok haddr (by simp [nch_single hv]) (initBody_single_script (initStatusOk_iff.2 hstatus) hv henv)]
  rfl

/-- Settles O31: the run of `INIT` on `MULTI8`. -/
theorem initOnMulti8Succeeds : Obligations.InitOnMulti8Succeeds := by
  intro s addr ch status w₁ w₂ w₃ w₄ w₅ k r rest hv haddr hch hstatus hr henv
  have hlegal : ch.toNat < nch s.conf := by rw [nch_multi8 hv, hch]; exact k.isLt
  have hbody := initBody_multi8_script (s := (s.setMode .uninit).setAddr addr) (initStatusOk_iff.2 hstatus) hv hr henv
  rw [← channelBits_eq_ofNat hch] at hbody
  rw [execInit_of_ok haddr hlegal hbody, channelBits_eq_ofNat hch]
  rfl

/-! ### `SELCH` -/

/-- Settles O34: on `SINGLE` channel 0 is the one legal channel. -/
theorem selchOnSingleDoesNothing : Obligations.SelchOnSingleDoesNothing := by
  intro s ch hv
  have hlegal : channelLegal s.conf ch = true ↔ ch = 0 := by
    rw [channelLegal, nch_single hv, decide_eq_true_iff, Nat.lt_one_iff, ← BitVec.toNat_inj]
    rfl
  refine ⟨fun h0 hm => ?_, fun h0 => ?_⟩ <;> refine congrArg Host.Outcome.next ?_
  · rw [if_pos (hlegal.2 h0), if_pos hm, selchReady, hv]
    rfl
  · rw [if_neg (mt hlegal.1 h0)]
    rfl

/-- A legal `SELCH` on `MULTI8` in `READY` (`40_bridge_controller.md` R110). -/
theorem execSelch_multi8 {s : State} {ch : Byte} (hv : s.conf.variant = .multi8) (hm : s.mode = .ready)
    (hch : ch.toNat < 8) : exec (.selch ch) s = .next (selchMulti ch s) := by
  have hlegal : channelLegal s.conf ch = true := by simpa [channelLegal, nch_multi8 hv] using hch
  refine congrArg Host.Outcome.next ?_
  rw [if_pos hlegal, if_pos hm, selchReady, hv]

section
variable {s t u : State} {ch : Byte}

theorem selchMulti_of_poll_error {e : Err} (h : pollUntilIdle s = .error e t) :
    selchMulti ch s = takeError .selchPoll e t := by
  rw [selchMulti, h]

theorem selchMulti_of_sequence_error {v : Byte} {e : Err} (h : pollUntilIdle s = .ok v t)
    (hu : selchSequence (channelBits ch) t = .error e u) : selchMulti ch s = takeError .selchSequence e u := by
  simp only [selchMulti, h, hu]

theorem selchMulti_of_ok {v : Byte} (h : pollUntilIdle s = .ok v t)
    (hu : selchSequence (channelBits ch) t = .ok () u) :
    selchMulti ch s = deliver (.ok .none) (u.setCh (channelBits ch)) := by
  simp only [selchMulti, h, hu]

end

/-- Settles O35: the echo is the channel's. -/
theorem selchOnMulti8Succeeds : Obligations.SelchOnMulti8Succeeds := by
  intro s ch w₁ w₂ k r rest hv hm hch hr henv
  obtain ⟨t, hpoll, hsequence⟩ := pollThenSelect_script k hr henv
  rw [if_neg (not_not.2 rfl), ← channelBits_eq_ofNat hch] at hsequence
  rw [execSelch_multi8 hv hm (hch ▸ k.isLt), selchMulti_of_ok hpoll hsequence, channelBits_eq_ofNat hch]
  rfl

/-- Settles O36: the echo is not the channel's. -/
theorem selchEchoMismatchFails : Obligations.SelchEchoMismatchFails := by
  intro s ch w₁ w₂ e k r rest hv hm hch hr he henv
  obtain ⟨t, hpoll, hsequence⟩ := pollThenSelect_script k hr henv
  rw [if_pos he, ← channelBits_eq_ofNat hch] at hsequence
  rw [execSelch_multi8 hv hm (hch ▸ k.isLt), selchMulti_of_sequence_error hpoll hsequence]
  exact ⟨_, _, _, rfl⟩

/-- Settles O37: the poll raises, the sequence raises, or both return. -/
theorem selchOutcomesByPhase : Obligations.SelchOutcomesByPhase := by
  intro s ch hv hm hch
  rw [execSelch_multi8 hv hm hch]
  refine ⟨fun e t hpoll => ⟨(pollUntilIdle_raises s e t hpoll).symm, _, rfl, ?_⟩,
    fun v t hpoll => ⟨fun u hsequence => ⟨_, rfl, ?_⟩,
      fun e u hsequence => ⟨selchSequence_raises _ t e u hsequence, _, rfl, ?_⟩⟩⟩
  · rw [selchMulti_of_poll_error hpoll]
    exact ⟨rfl, rfl, (takeError_selchPoll_ch e t).trans (pollUntilIdle_keeps.of_error hpoll).ch, takeError_trace _ _ _⟩
  · have hmode : u.mode = s.mode :=
      ((selchSequence_keeps _).of_ok hsequence).mode.trans (pollUntilIdle_keeps.of_ok hpoll).mode
    rw [selchMulti_of_ok hpoll hsequence]
    exact ⟨rfl, hmode.trans hm, channelBits_toNat (by rwa [nch_multi8 hv]), rfl⟩
  · rw [selchMulti_of_sequence_error hpoll hsequence]
    exact ⟨rfl, rfl, takeError_trace _ _ _⟩

/-! ### Bridge commands as steps -/

/-- A command byte without a parameter is a fragment of one write. -/
theorem exec_commandByte {s : State} {i : Instr} {code : Byte}
    (h : (i, code) ∈ [(Instr.drst, s.conf.cmdDRST), (.w1rs, s.conf.cmd1WRS), (.w1rb, s.conf.cmd1WRB)]) :
    exec i s = .next (runFragment (cmd0 code) s) := by
  simp only [List.mem_cons, Prod.mk.injEq, List.not_mem_nil, or_false] at h
  rcases h with ⟨rfl, rfl⟩ | ⟨rfl, rfl⟩ | ⟨rfl, rfl⟩ <;> rfl

/-- A command byte with a parameter is a fragment of two writes. -/
theorem exec_commandWithParameter {s : State} {i : Instr} {code p : Byte}
    (h : (i, code) ∈ [(Instr.srp p, s.conf.cmdSRP), (.wcfg p, s.conf.cmdWCFG), (.chsl p, s.conf.cmdCHSL),
      (.w1wb p, s.conf.cmd1WWB), (.w1t p, s.conf.cmd1WT), (.w1sb p, s.conf.cmd1WSB)]) :
    exec i s = .next (runFragment (cmd1 code p) s) := by
  simp only [List.mem_cons, Prod.mk.injEq, List.not_mem_nil, or_false] at h
  rcases h with ⟨rfl, rfl⟩ | ⟨rfl, rfl⟩ | ⟨rfl, rfl⟩ | ⟨rfl, rfl⟩ | ⟨rfl, rfl⟩ | ⟨rfl, rfl⟩ <;> rfl

/-- The first write fails, and the second is not issued (`40_bridge_controller.md` R103). -/
theorem cmd1_script_nack {s : State} {code p : Byte} {rest : List Answer} (henv : s.env = .script (.nack :: rest)) :
    cmd1 code p s = .error .transport (afterOps s [.failed] rest) :=
  bind_of_error (tWrite_script_nack henv) _

/-- The second write fails. -/
theorem cmd1_script_ack_nack {s : State} {code p w : Byte} {rest : List Answer}
    (henv : s.env = .script (.ack w :: .nack :: rest)) :
    cmd1 code p s = .error .transport (afterOps s [.wr s.addr code, .failed] rest) := by
  rw [cmd1, bind_of_ok (tWrite_script henv), tWrite_script_nack rfl]
  simp [afterOps, record, State.setTrace, State.setEnv]

/-- Settles O38: a bridge command is a fragment of one write or two, and the script says which of them fails. -/
theorem bridgeCommandsWriteTheirBytes : Obligations.BridgeCommandsWriteTheirBytes := by
  refine ⟨fun s i code w rest hi => ?_, fun s i code p w₁ w₂ rest hi => ?_⟩
  · rw [exec_commandByte hi]
    exact ⟨fun hm => congrArg Host.Outcome.next (runFragment_uninit _ hm),
      fun hm henv => congrArg Host.Outcome.next (runFragment_of_ok hm (tWrite_script henv)),
      fun hm henv => congrArg Host.Outcome.next (runFragment_of_error hm (tWrite_script_nack henv))⟩
  · rw [exec_commandWithParameter hi]
    exact ⟨fun hm => congrArg Host.Outcome.next (runFragment_uninit _ hm),
      fun hm henv => congrArg Host.Outcome.next (runFragment_of_ok hm (cmd1_script henv)),
      fun hm henv => congrArg Host.Outcome.next (runFragment_of_error hm (cmd1_script_nack henv)),
      fun hm henv => congrArg Host.Outcome.next (runFragment_of_error hm (cmd1_script_ack_nack henv))⟩

end Sys2Proof.Machine
end

section
/-! PROOFS. `INIT` stops at the first answer it does not expect (`40_bridge_controller.md` R109): what a procedure does
on the answers that give some operations, and where one of them is not acknowledged. -/

namespace Sys2Proof.Machine

open Sys2Proof.Safety

/-! ### Procedures on the answers that give their operations -/

section
variable {α β : Type}

/-- A procedure returned a value or raised an error, and left a state. -/
def endsIn : Except Err α → State → EStateM.Result Err State α
  | .ok v, t => .ok v t
  | .error e, t => .error e t

/-- On answers that give the operations `ops` at address `a` the procedure issues them, takes no other answer and
ends as `r` says. -/
def Performs (c : ConfigRecord) (a : Byte) (p : Proc α) (ops : List TransportOp) (r : Except Err α) : Prop :=
  ∀ s as rest, s.conf = c → s.addr = a → AnswersGive ops as → s.env = .script (as ++ rest) →
    ∃ t, p s = endsIn r t ∧ t.conf = c ∧ t.addr = a ∧ t.env = .script rest ∧ t.trace = s.trace ++ ops

variable {c : ConfigRecord} {a : Byte} {ops ops' : List TransportOp} {p : Proc α} {f : α → Proc β} {v : α}

/-- The first part returns, and the second ends as `r` says. -/
theorem Performs.bind {r : Except Err β} (hp : Performs c a p ops (.ok v)) (hf : Performs c a (f v) ops' r) :
    Performs c a (p >>= f) (ops ++ ops') r := by
  intro s as rest hconf haddr has henv
  have hfirst : AnswersGive ops (as.take ops.length) := by
    simpa [AnswersGive] using List.forall₂_take ops.length has
  have hsecond : AnswersGive ops' (as.drop ops.length) := by
    simpa [AnswersGive] using List.forall₂_drop ops.length has
  rw [← List.take_append_drop ops.length as, List.append_assoc] at henv
  obtain ⟨t, hrun, htconf, htaddr, htenv, htrace⟩ := hp s _ _ hconf haddr hfirst henv
  obtain ⟨u, hrun', huconf, huaddr, huenv, hutrace⟩ := hf t _ _ htconf htaddr hsecond htenv
  exact ⟨u, (bind_of_ok hrun f).trans hrun', huconf, huaddr, huenv, by rw [hutrace, htrace, List.append_assoc]⟩

/-- The first part raises. -/
theorem Performs.bind_error {e : Err} (hp : Performs c a p ops (.error e)) (f : α → Proc β) :
    Performs c a (p >>= f) ops (.error e) := by
  intro s as rest hconf haddr has henv
  obtain ⟨t, hrun, ht⟩ := hp s as rest hconf haddr has henv
  exact ⟨t, bind_of_error hrun f, ht⟩

theorem Performs.throw (e : Err) : Performs c a (throw e : Proc α) [] (.error e) := by
  intro s as rest hconf haddr has henv
  obtain rfl := List.forall₂_nil_left_iff.1 has
  exact ⟨s, rfl, hconf, haddr, henv, by simp⟩

/-- The procedure performs `ops` and returns `v`; where one of them is not acknowledged, it stops there with
`TransportError` (`20_memory.md` R44). -/
structure RunsTo (c : ConfigRecord) (a : Byte) (p : Proc α) (ops : List TransportOp) (v : α) : Prop where
  ok : Performs c a p ops (.ok v)
  cut : ∀ n < ops.length, Performs c a p (ops.take n ++ [.failed]) (.error .transport)

/-- One procedure after the other: the operation that is not acknowledged is of the first or of the second. -/
theorem RunsTo.bind {w : β} (hp : RunsTo c a p ops v) (hf : RunsTo c a (f v) ops' w) :
    RunsTo c a (p >>= f) (ops ++ ops') w where
  ok := hp.ok.bind hf.ok
  cut n hn := by
    by_cases h : n < ops.length
    · rw [List.take_append_of_le_length h.le]
      exact (hp.cut n h).bind_error f
    · have hle : ops.length ≤ n := Nat.le_of_not_lt h
      rw [List.length_append] at hn
      rw [List.take_append, List.take_of_length_le hle, List.append_assoc]
      exact hp.ok.bind (hf.cut (n - ops.length) (by omega))

/-- A procedure that issues no transport operation. -/
theorem RunsTo.silent (h : ∀ s, s.conf = c → ∃ t, p s = .ok v t ∧ t.conf = s.conf ∧ t.addr = s.addr ∧ t.env = s.env ∧
    t.trace = s.trace) : RunsTo c a p [] v where
  ok s as rest hconf haddr has henv := by
    obtain rfl := List.forall₂_nil_left_iff.1 has
    obtain ⟨t, hrun, htconf, htaddr, htenv, htrace⟩ := h s hconf
    exact ⟨t, hrun, htconf.trans hconf, htaddr.trans haddr, htenv.trans henv, by simp [htrace]⟩
  cut n hn := absurd hn (Nat.not_lt_zero n)

theorem RunsTo.pure (v : α) : RunsTo c a (pure v) [] v := .silent fun s _ => ⟨s, rfl, rfl, rfl, rfl, rfl⟩

theorem RunsTo.getConf : RunsTo c a getConf [] c := .silent fun s hs => ⟨s, by rw [getConf_run, hs], rfl, rfl, rfl, rfl⟩

theorem RunsTo.modify {g : State → State}
    (h : ∀ s, (g s).conf = s.conf ∧ (g s).addr = s.addr ∧ (g s).env = s.env ∧ (g s).trace = s.trace) :
    RunsTo c a (modify g) [] () := .silent fun s _ => ⟨g s, rfl, h s⟩

end

/-! ### Transport operations and bridge commands -/

section
variable {c : ConfigRecord} {a : Byte}

/-- A single operation, by what it does when it is acknowledged and when it is not. -/
theorem RunsTo.operation {α : Type} {p : Proc α} {op : TransportOp} {v : α}
    (hack : ∀ s x rest, s.addr = a → gives op x → s.env = .script (x :: rest) →
      p s = .ok v (record op (s.setEnv (.script rest))))
    (hnack : ∀ s rest, s.env = .script (.nack :: rest) →
      p s = .error .transport (record .failed (s.setEnv (.script rest)))) : RunsTo c a p [op] v where
  ok s as rest hconf haddr has henv := by
    match as, has with
    | [x], .cons hx .nil => exact ⟨_, hack s x rest haddr hx henv, hconf, haddr, rfl, rfl⟩
  cut n hn s as rest hconf haddr has henv := by
    obtain rfl := Nat.lt_one_iff.1 hn
    match as, has with
    | [.nack], .cons _ .nil => exact ⟨_, hnack s rest henv, hconf, haddr, rfl, rfl⟩

theorem tWrite_runsTo (b : Byte) : RunsTo c a (tWrite b) [.wr a b] () := by
  refine .operation (fun s x rest haddr hx henv => ?_) fun s rest => tWrite_script_nack
  cases x with
  | ack v => rw [tWrite_script henv, haddr]
  | nack => exact absurd rfl hx

theorem tRead_runsTo (v : Byte) : RunsTo c a tRead [.rd a v] v := by
  refine .operation (fun s x rest haddr hx henv => ?_) fun s rest => tRead_script_nack
  obtain rfl := hx
  rw [tRead_script henv, haddr]

theorem cmd1_runsTo (code p : Byte) : RunsTo c a (cmd1 code p) [.wr a code, .wr a p] () :=
  (tWrite_runsTo code).bind (tWrite_runsTo p)

/-! ### The poll -/

theorem pollLoop_runsTo {idle : Byte} (hidle : busyFlag c idle = false) (busy : List Byte) : ∀ {n : Nat},
    (∀ v ∈ busy, busyFlag c v = true) → busy.length < n →
    RunsTo c a (pollLoop n) (busy.map (.rd a) ++ [.rd a idle]) idle := by
  have counted (v : Byte) : RunsTo c a (modify fun s => (s.setSt v).setPollcnt (s.pollcnt + 1)) [] () :=
    .modify fun s => ⟨rfl, rfl, rfl, rfl⟩
  induction busy with
  | nil =>
    intro n _ hn
    obtain ⟨n, rfl⟩ := Nat.exists_eq_succ_of_ne_zero hn.ne'
    refine (tRead_runsTo idle).bind ((counted idle).bind (RunsTo.getConf.bind (ops' := []) ?_))
    rw [hidle]
    exact .pure idle
  | cons v busy ih =>
    intro n hbusy hn
    obtain ⟨n, rfl⟩ := Nat.exists_eq_succ_of_ne_zero (Nat.ne_zero_of_lt hn)
    obtain ⟨hv, hbusy⟩ := List.forall_mem_cons.1 hbusy
    refine (tRead_runsTo v).bind ((counted v).bind (RunsTo.getConf.bind ?_))
    rw [hv]
    exact ih hbusy (Nat.lt_of_succ_lt_succ hn)

theorem pollUntilIdle_runsTo {r : PollRun} (hr : r.ok c) : RunsTo c a pollUntilIdle (r.trace c a) r.idle := by
  obtain ⟨hbusy, hlen, hidle⟩ := hr
  exact RunsTo.getConf.bind ((cmd1_runsTo _ _).bind
    ((RunsTo.modify (by simp)).bind (pollLoop_runsTo hidle r.busy hbusy hlen)))

/-- Reads that all succeed: the answers are their bytes. -/
theorem answersGive_reads {as : List Answer} : ∀ {vs : List Byte}, AnswersGive (vs.map (.rd a)) as → as = vs.map .ack
  | [], .nil => rfl
  | _ :: _, .cons rfl h => congrArg (_ :: ·) (answersGive_reads h)

theorem pollUntilIdle_performs_timeout {busy : List Byte} (hbusy : ∀ v ∈ busy, busyFlag c v = true)
    (hlen : busy.length = c.pollMax) : Performs c a pollUntilIdle
      (.wr a c.cmdSRP :: .wr a c.ptrStatus :: busy.map (.rd a)) (.error .timeout) := by
  rintro s as rest rfl rfl has henv
  match as, has with
  | .ack _ :: .ack _ :: _, .cons _ (.cons _ hreads) =>
    obtain rfl := answersGive_reads hreads
    exact ⟨_, pollUntilIdle_script_timeout hbusy hlen henv, rfl, rfl, rfl, rfl⟩
  | .nack :: _, .cons h _ => exact absurd rfl h
  | .ack _ :: .nack :: _, .cons _ (.cons h _) => exact absurd rfl h

/-! ### The channel-select sequence -/

theorem selchSequence_runsTo (k : Fin 8) :
    RunsTo c a (selchSequence (BitVec.ofNat 3 k.val)) (selchTrace c a k (c.checho.get k)) () := by
  rw [selchTrace, ← channelCode_ofNat, ← channelEcho_ofNat]
  refine RunsTo.getConf.bind ((cmd1_runsTo _ _).bind ((tRead_runsTo _).bind (ops' := []) ?_))
  rw [if_neg (not_not.2 rfl)]
  exact .pure ()

theorem selchSequence_performs_echo {k : Fin 8} {e : Byte} (he : e ≠ c.checho.get k) :
    Performs c a (selchSequence (BitVec.ofNat 3 k.val)) (selchTrace c a k e) (.error .initialization) := by
  rw [← channelEcho_ofNat] at he
  rw [selchTrace, ← channelCode_ofNat]
  refine RunsTo.getConf.ok.bind ((cmd1_runsTo _ _).ok.bind ((tRead_runsTo e).ok.bind (ops' := []) ?_))
  rw [if_pos he]
  exact .throw _

/-! ### `INIT` -/

section
variable {status : Byte} (hs : initStatusOk c status = true)
include hs

theorem initConfirm_runsTo : RunsTo c a (initConfirm c) (initTraceConfig c a status c.cfgInit) () := by
  refine (tWrite_runsTo _).bind ((tRead_runsTo status).bind ?_)
  rw [if_neg (by simp [hs])]
  refine (cmd1_runsTo _ _).bind ((tRead_runsTo c.cfgInit).bind (ops' := []) ?_)
  rw [if_neg (not_not.2 rfl)]
  exact .pure ()

theorem initConfirm_performs_config {f : Byte} (hf : f ≠ c.cfgInit) :
    Performs c a (initConfirm c) (initTraceConfig c a status f) (.error .initialization) := by
  refine (tWrite_runsTo _).ok.bind ((tRead_runsTo status).ok.bind ?_)
  rw [if_neg (by simp [hs])]
  refine (cmd1_runsTo _ _).ok.bind ((tRead_runsTo f).ok.bind (ops' := []) ?_)
  rw [if_pos hf]
  exact .throw _

end

theorem initConfirm_performs_status {status : Byte} (hs : initStatusOk c status = false) :
    Performs c a (initConfirm c) [.wr a c.cmdDRST, .rd a status] (.error .initialization) := by
  refine (tWrite_runsTo _).ok.bind ((tRead_runsTo status).ok.bind (ops' := []) ?_)
  rw [if_pos (by simp [hs])]
  exact .throw _

/-- On `SINGLE` there is no channel selection. -/
theorem initSelect_single_runsTo (hv : c.variant = .single) (ch : BitVec 3) (f : Byte) :
    RunsTo c a (initSelect c ch f) [] () := by
  refine (RunsTo.modify (by simp)).bind (ops' := []) ?_
  rw [if_neg (by simp [hv])]
  exact .pure ()

/-- On `MULTI8` the configuration byte is kept and the poll and the sequence follow. -/
theorem initSelect_multi8_eq (hv : c.variant = .multi8) (ch : BitVec 3) (f : Byte) :
    initSelect c ch f = ((modify fun t => t.setCfg f) >>= fun _ => pollUntilIdle >>= fun _ => selchSequence ch) := by
  rw [initSelect, if_pos hv]

/-- The operations of an `INIT` that succeeds. -/
theorem initBody_runsTo {k : Fin 8} {status : Byte} {r : PollRun} (hs : initStatusOk c status = true) (hr : r.ok c) :
    RunsTo c a (initBody (BitVec.ofNat 3 k.val)) (initTrace c a k status r) () := by
  rw [initBody_eq_confirm, initTrace]
  refine RunsTo.getConf.bind ((initConfirm_runsTo hs).bind ?_)
  cases hv : c.variant with
  | single => exact initSelect_single_runsTo hv _ _
  | multi8 =>
    rw [initSelect_multi8_eq hv]
    exact (RunsTo.modify (by simp)).bind ((pollUntilIdle_runsTo hr).bind (selchSequence_runsTo k))

/-- `INIT` stops before the configuration is confirmed. -/
theorem initBody_performs_of_confirm {ch : BitVec 3} {ops : List TransportOp} {e : Err}
    (h : Performs c a (initConfirm c) ops (.error e)) : Performs c a (initBody ch) ops (.error e) := by
  rw [initBody_eq_confirm]
  exact RunsTo.getConf.ok.bind (h.bind_error _)

/-- `INIT` stops in the channel selection. -/
theorem initBody_performs_of_select {ch : BitVec 3} {status : Byte} {ops : List TransportOp} {e : Err}
    (hs : initStatusOk c status = true) (hv : c.variant = .multi8)
    (h : Performs c a (pollUntilIdle >>= fun _ => selchSequence ch) ops (.error e)) :
    Performs c a (initBody ch) (initTraceConfig c a status c.cfgInit ++ ops) (.error e) := by
  rw [initBody_eq_confirm]
  refine RunsTo.getConf.ok.bind ((initConfirm_runsTo hs).ok.bind ?_)
  rw [initSelect_multi8_eq hv]
  exact (RunsTo.modify (by simp)).ok.bind h

/-- The operations of an `INIT` that fails, for each cause of `40_bridge_controller.md` R109. -/
theorem initBody_performs_stop {k : Fin 8} {ops : List TransportOp} (h : InitStops c a k ops) :
    ∃ e, Performs c a (initBody (BitVec.ofNat 3 k.val)) ops (.error e) := by
  cases h with
  | nack status r n hs hr hn => exact ⟨_, (initBody_runsTo hs hr).cut n hn⟩
  | status status hs => exact ⟨_, initBody_performs_of_confirm (initConfirm_performs_status hs)⟩
  | config status f hs hf => exact ⟨_, initBody_performs_of_confirm (initConfirm_performs_config hs hf)⟩
  | timeout status busy hv hs hb hn =>
    exact ⟨_, initBody_performs_of_select hs hv ((pollUntilIdle_performs_timeout hb hn).bind_error _)⟩
  | echo status e r hv hs hr he =>
    exact ⟨_, initBody_performs_of_select hs hv ((pollUntilIdle_runsTo hr).ok.bind (selchSequence_performs_echo he))⟩

end

/-- Settles O33: the body performs the operations of `InitStops` and raises, and `INIT` reports
`InitializationError`. -/
theorem initStopsAtUnexpectedAnswer : Obligations.InitStopsAtUnexpectedAnswer := by
  intro s addr ch k ops as rest haddr hch hk hstops has henv
  obtain ⟨e, hbody⟩ := initBody_performs_stop hstops
  obtain ⟨t, hrun, -, htaddr, htenv, htrace⟩ :=
    hbody ((s.setMode .uninit).setAddr addr) as rest rfl rfl has henv
  rw [← channelBits_eq_ofNat hch] at hrun
  exact ⟨_, execInit_of_error haddr (hch ▸ hk) hrun, rfl, rfl, (takeError_addr _ _ _).trans htaddr,
    (takeError_env _ _ _).trans htenv, (takeError_trace _ _ _).trans htrace⟩

end Sys2Proof.Machine
end

section
/-! PROOFS. The primitives of the OneWireBus on scripted answers (`41_onewire_bus.md` R130 to R138, R140): the normal
runs of `OWRESET`, `OWWRITE`, `OWREAD`, `MATCHROM` and the search triplet, each with the whole next state. -/

namespace Sys2Proof.Machine

open Sys2Proof.Safety

/-! ### Procedures -/

section
variable {s : State} {r q : PollRun} {w : Byte} {rest : List Answer}

/-- A command byte without a parameter, acknowledged. -/
theorem cmd0_script (henv : s.env = .script (.ack w :: rest)) (code : Byte) :
    cmd0 code s = .ok () (afterOps s [.wr s.addr code] rest) :=
  tWrite_script henv

/-- A bridge command without a parameter between two polls that end. -/
theorem plainCommandBetweenPolls_script {α : Type} (hr : r.ok s.conf) (hq : q.ok s.conf)
    (henv : s.env = .script (r.answers ++ .ack w :: (q.answers ++ rest))) (code : Byte) (k : Byte → Proc α) :
    (pollUntilIdle >>= fun _ => cmd0 code >>= fun _ => pollUntilIdle >>= k) s =
      k q.idle (afterPolls s (r.trace s.conf s.addr ++ .wr s.addr code :: q.trace s.conf s.addr) q rest) := by
  rw [bind_of_ok (pollUntilIdle_script hr henv), bind_of_ok (cmd0_script rfl code)]
  refine Eq.trans (bind_of_ok (pollUntilIdle_script (s := afterOps (afterPolls s _ _ _) _ _) hq rfl) k) ?_
  simp [afterPolls, afterOps]

/-- `reset_proc` (`41_onewire_bus.md` R130). -/
theorem busReset_script (hr : r.ok s.conf) (hq : q.ok s.conf)
    (henv : s.env = .script (r.answers ++ .ack w :: (q.answers ++ rest))) :
    busReset s = .ok (presenceFlag s.conf q.idle)
      (afterPolls s (r.trace s.conf s.addr ++ .wr s.addr s.conf.cmd1WRS :: q.trace s.conf s.addr) q rest) := by
  rw [busReset, bind_of_ok (getConf_run s), plainCommandBetweenPolls_script hr hq henv]
  rfl

/-- `readByte_proc`: after the second poll the byte is fetched through `PTR_DATA` (`41_onewire_bus.md` R134). -/
theorem readByte_script {w₁ w₂ v : Byte} (hr : r.ok s.conf) (hq : q.ok s.conf)
    (henv : s.env = .script (r.answers ++ .ack w :: (q.answers ++ .ack w₁ :: .ack w₂ :: .ack v :: rest))) :
    readByte s = .ok v (afterPolls s (r.trace s.conf s.addr ++ .wr s.addr s.conf.cmd1WRB :: (q.trace s.conf s.addr ++
      [.wr s.addr s.conf.cmdSRP, .wr s.addr s.conf.ptrData, .rd s.addr v])) q rest) := by
  rw [readByte, bind_of_ok (getConf_run s), plainCommandBetweenPolls_script hr hq henv, bind_of_ok (cmd1_script rfl),
    tRead_script rfl]
  simp [record, State.setTrace, State.setEnv, afterCommand, afterPolls]

/-- `searchTriplet_proc`: both bits are read from the status byte that ends the second poll (`41_onewire_bus.md`
R140). -/
theorem searchTriplet_script {x : WriteRun} (hx : x.ok s.conf) (henv : s.env = .script (x.answers ++ rest))
    (dir : Bool) :
    searchTriplet dir s = .ok (idBitFlag s.conf x.after.idle, complementBitFlag s.conf x.after.idle)
      (afterPolls s (x.trace s.conf s.addr s.conf.cmd1WT (directionByte dir)) x.after rest) := by
  rw [searchTriplet, bind_of_ok (getConf_run s), commandBetweenPolls_script hx henv]
  rfl

/-- Without presence `matchROM_proc` ends after its bus reset (`41_onewire_bus.md` R136). -/
theorem matchRom_of_absent {t : State} (h : busReset s = .ok false t) (id : Identifier) :
    matchRom id s = .ok false t := by
  rw [matchRom, bind_of_ok h]
  rfl

/-- With presence `matchROM_proc` returns once its byte writes have (`41_onewire_bus.md` R136). -/
theorem matchRom_of_present {t u : State} {id : Identifier} (h : busReset s = .ok true t)
    (hbytes : matchRomBytes id t = .ok () u) : matchRom id s = .ok true u := by
  rw [matchRom, bind_of_ok h, if_pos rfl, bind_of_ok hbytes]
  rfl

end

/-- Settles O46: the direction byte of the triplet is the one of `30_encoding.md` R91. -/
theorem tripletReturnsBothBits : Obligations.TripletReturnsBothBits :=
  fun _ dir _ _ hw henv => searchTriplet_script hw henv dir

/-! ### Host operations -/

/-- Under `host_prim` a body that returns in an admitted mode is run to its end. -/
theorem hostPrim_of_ok {α : Type} {allowed : List Mode} {body : Proc α} {s t : State} {v : α}
    (hm : s.mode ∈ allowed) (hbody : body s = .ok v t) : hostPrim allowed body s = (.ok v, t) := by
  rw [hostPrim, if_pos hm, hbody]

/-- A host operation in `READY` whose body returns delivers its value. -/
theorem endPrim_of_ok {α : Type} {body : Proc α} {s t : State} {v : α} (value : α → Value) (hm : s.mode = .ready)
    (hbody : body s = .ok v t) : endPrim value (hostPrim [.ready] body s) = deliver (.ok (value v)) t := by
  rw [hostPrim_of_ok (List.mem_singleton.2 hm) hbody]
  rfl

/-- Settles O39: `OWRESET` delivers the presence bit of its bus reset and recovers. -/
theorem owresetReportsPresence : Obligations.OwresetReportsPresence := by
  intro s r q w rest hm hr hq henv
  have hmode : s.mode ∈ [Mode.ready, .dirty] := by simpa using hm
  change execOwreset s = _
  rw [execOwreset, hostPrim_of_ok hmode (busReset_script hr hq henv)]
  rfl

/-- Settles O40: `OWWRITE` is one byte write. -/
theorem owwriteSendsByte : Obligations.OwwriteSendsByte :=
  fun _ b _ _ hm hw henv => congrArg Host.Outcome.next (endPrim_of_ok _ hm (writeByte_script hw henv b))

/-- Settles O41: `OWREAD` is one byte read. -/
theorem owreadFetchesByte : Obligations.OwreadFetchesByte :=
  fun _ _ _ _ _ _ _ _ hm hr hq henv => congrArg Host.Outcome.next (endPrim_of_ok _ hm (readByte_script hr hq henv))

/-- Settles O42: the bus reset sees no presence and nothing follows it. -/
theorem matchromWithoutPresence : Obligations.MatchromWithoutPresence := by
  intro s id r q w rest hm hr hq hp henv
  have hreset := busReset_script hr hq henv
  rw [hp] at hreset
  exact congrArg Host.Outcome.next (endPrim_of_ok _ hm (matchRom_of_absent hreset id))

/-- Settles O43: after the bus reset the nine bytes are written as the script answers. -/
theorem matchromSendsNineBytes : Obligations.MatchromSendsNineBytes := by
  intro s id r q w ws last rest hm hr hq hp hlen hws hlast henv
  have hreset := busReset_script hr hq henv
  rw [hp] at hreset
  have hbytes := (matchRomBytes_eq id _).trans (writeBytes_script (bs := s.conf.romMatch :: id.toList)
    (s := afterPolls s (r.trace s.conf s.addr ++ .wr s.addr s.conf.cmd1WRS :: q.trace s.conf s.addr) q
      (ws.flatMap WriteRun.answers ++ (last.answers ++ rest))) ws (by simp [hlen]) hws hlast rfl)
  rw [afterPolls_afterPolls, List.append_assoc, List.cons_append] at hbytes
  exact congrArg Host.Outcome.next (endPrim_of_ok _ hm (matchRom_of_present hreset hbytes))

end Sys2Proof.Machine
end

section
/-! PROOFS. What a run of the OneWireBus adds to the trace once the poll traffic is removed (`41_onewire_bus.md` R139),
for every environment: a procedure that returned leaves its commands with their parameters, in order. -/

namespace Sys2Proof.Machine

open Sys2Proof.Safety

/-! ### Removing the poll traffic -/

section
variable {c : ConfigRecord}

/-- Reads are removed. -/
theorem withoutPolls_reads (a : Byte) (ops : List TransportOp) : ∀ vs : List Byte,
    withoutPolls c .command (vs.map (.rd a) ++ ops) = withoutPolls c .command ops
  | [] => rfl
  | _ :: vs => withoutPolls_reads a ops vs

/-- A set-read-pointer pair is removed. -/
theorem withoutPolls_setPointer (a p : Byte) (ops : List TransportOp) :
    withoutPolls c .command (.wr a c.cmdSRP :: .wr a p :: ops) = withoutPolls c .command ops := by
  simp [withoutPolls]

/-- A command without a parameter is kept. -/
theorem withoutPolls_code {code : Byte} {r : Bool} {u : FlagUse} (h : CodeScan c code false r u) (a : Byte)
    (ops : List TransportOp) :
    withoutPolls c .command (.wr a code :: ops) = .wr a code :: withoutPolls c .command ops := by
  have hparam := h.parameter
  simp only [takesParameter, Bool.or_eq_false_iff, beq_eq_false_iff_ne] at hparam
  simp [withoutPolls, hparam]

/-- A command with its parameter is kept, whatever byte that is. -/
theorem withoutPolls_codeWithParameter {code : Byte} {r : Bool} {u : FlagUse} (h : CodeScan c code true r u)
    (a p : Byte) (ops : List TransportOp) :
    withoutPolls c .command (.wr a code :: .wr a p :: ops) = .wr a code :: .wr a p :: withoutPolls c .command ops := by
  have hparam : code = c.cmdWCFG ∨ code = c.cmdCHSL ∨ code = c.cmd1WWB ∨ code = c.cmd1WT ∨ code = c.cmd1WSB := by
    simpa [takesParameter, h.notSrp, or_assoc] using h.parameter
  simp [withoutPolls, h.notSrp, hparam]

end

/-! ### Procedures -/

/-- From `s` to `t` the block added whole bridge commands to the trace, of which `kept` are left when the poll traffic
is removed, whatever comes after them. -/
structure Issued (kept : List TransportOp) (s t : State) : Prop where
  conf : t.conf = s.conf
  addr : t.addr = s.addr
  trace : ∃ ops, t.trace = s.trace ++ ops ∧
    ∀ later, withoutPolls s.conf .command (ops ++ later) = kept ++ withoutPolls s.conf .command later

theorem Issued.trans {p q : List TransportOp} {s t u : State} (h : Issued p s t) (k : Issued q t u) :
    Issued (p ++ q) s u := by
  obtain ⟨hconf, haddr, ops, htrace, hops⟩ := h
  obtain ⟨kconf, kaddr, ops', ktrace, kops⟩ := k
  refine ⟨kconf.trans hconf, kaddr.trans haddr, ops ++ ops', by rw [ktrace, htrace, List.append_assoc], fun later => ?_⟩
  rw [List.append_assoc, hops, ← hconf, kops, List.append_assoc]

/-- With record `c` and device address `a`, every run of `p` that returns is such. -/
def Issues {α : Type} (c : ConfigRecord) (a : Byte) (p : Proc α) (kept : List TransportOp) : Prop :=
  ∀ s v t, s.conf = c → s.addr = a → p s = .ok v t → Issued kept s t

section
variable {α β : Type} {c : ConfigRecord} {a : Byte} {p q : List TransportOp}

theorem Issues.bind {x : Proc α} {f : α → Proc β} (hx : Issues c a x p) (hf : ∀ v, Issues c a (f v) q) :
    Issues c a (x >>= f) (p ++ q) := by
  intro s w u hc ha h
  obtain ⟨v, t, hxs, hft⟩ := bind_ok.1 h
  have first := hx s v t hc ha hxs
  exact first.trans (hf v t w u (first.conf.trans hc) (first.addr.trans ha) hft)

theorem Issues.pure (v : α) : Issues c a (pure v) [] := by
  intro s w t _ _ h
  cases h
  exact ⟨rfl, rfl, [], by simp, fun _ => rfl⟩

theorem Issues.getConf_bind {f : ConfigRecord → Proc β} (hf : Issues c a (f c) q) : Issues c a (getConf >>= f) q := by
  rintro s w u rfl ha h
  rw [bind_of_ok (getConf_run s)] at h
  exact hf s w u rfl ha h

/-- A procedure that keeps the registers, by the operations it adds. -/
theorem Issues.of_trace {x : Proc α} (hkeeps : Keeps BusFrame x)
    (htrace : ∀ s v t, s.conf = c → s.addr = a → x s = .ok v t → ∃ ops, t.trace = s.trace ++ ops ∧
      ∀ later, withoutPolls c .command (ops ++ later) = p ++ withoutPolls c .command later) : Issues c a x p := by
  rintro s v t rfl ha h
  have hframe := hkeeps.of_ok h
  exact ⟨hframe.conf, hframe.addr, htrace s v t rfl ha h⟩

end

section
variable {c : ConfigRecord} {a code : Byte} {r : Bool} {u : FlagUse}

theorem tRead_issues : Issues c a tRead [] := by
  refine .of_trace (tRead_keeps.mono fun _ _ => PortFrame.toBusFrame) fun s v t _ _ h => ?_
  rcases tRead_cases s with ⟨w, -, hw⟩ | ⟨-, hw⟩ <;> cases hw.symm.trans h
  exact ⟨_, record_trace _ (envRead_cases s), fun later => withoutPolls_reads s.addr later [v]⟩

theorem cmd0_issues (hcode : CodeScan c code false r u) : Issues c a (cmd0 code) [.wr a code] := by
  refine .of_trace ((cmd0_keeps code).mono fun _ _ => PortFrame.toBusFrame) fun s v t _ ha h => ?_
  rcases tWrite_cases code s with ⟨-, hw⟩ | ⟨-, hw⟩ <;> cases hw.symm.trans h
  exact ⟨_, record_trace _ (envWrite_cases code s), ha ▸ withoutPolls_code hcode s.addr⟩

/-- A bridge command with a parameter, by what is left of its two bytes. -/
theorem cmd1_issues_of {p : Byte} {kept : List TransportOp} (hkept : ∀ later,
    withoutPolls c .command (.wr a code :: .wr a p :: later) = kept ++ withoutPolls c .command later) :
    Issues c a (cmd1 code p) kept := by
  refine .of_trace ((cmd1_keeps code p).mono fun _ _ => PortFrame.toBusFrame) fun s v t _ ha h => ?_
  rcases cmd1_cases code p s with ⟨w, hw, htrace⟩ | ⟨w, hw, -⟩ <;> cases hw.symm.trans h
  exact ⟨_, htrace, ha ▸ hkept⟩

theorem cmd1_issues (hcode : CodeScan c code true r u) (p : Byte) : Issues c a (cmd1 code p) [.wr a code, .wr a p] :=
  cmd1_issues_of (withoutPolls_codeWithParameter hcode a p)

theorem setPointer_issues (p : Byte) : Issues c a (cmd1 c.cmdSRP p) [] := cmd1_issues_of (withoutPolls_setPointer a p)

/-- Nothing of a poll is left. -/
theorem pollUntilIdle_issues : Issues c a pollUntilIdle [] := by
  refine .of_trace pollUntilIdle_keeps fun s v t hc _ h => ?_
  obtain ⟨-, -, busy, -, -, -, htrace⟩ := (pollReadsAreBounded s).1 v t h
  subst hc
  exact ⟨_, htrace, fun later => (withoutPolls_setPointer _ _ _).trans (withoutPolls_reads _ later (busy ++ [v]))⟩

/-- Of a command between two polls the command is left, and what follows. -/
theorem Issues.betweenPolls {β : Type} {cmd : Proc Unit} {k : Byte → Proc β} {p q : List TransportOp}
    (hcmd : Issues c a cmd p) (hk : ∀ v, Issues c a (k v) q) :
    Issues c a (pollUntilIdle >>= fun _ => cmd >>= fun _ => pollUntilIdle >>= k) (p ++ q) :=
  pollUntilIdle_issues.bind fun _ => hcmd.bind fun _ => pollUntilIdle_issues.bind hk

/-! ### The primitives -/

theorem busReset_issues (hc : CommandRows c) : Issues c a busReset [.wr a c.cmd1WRS] :=
  .getConf_bind (.betweenPolls (cmd0_issues hc.w1rs) fun _ => .pure _)

theorem writeByte_issues (hc : CommandRows c) (b : Byte) : Issues c a (writeByte b) [.wr a c.cmd1WWB, .wr a b] :=
  .getConf_bind (.betweenPolls (cmd1_issues hc.w1wb b) fun _ => .pure _)

theorem writeBytes_issues (hc : CommandRows c) : ∀ bs : List Byte,
    Issues c a (writeBytes bs) (bs.flatMap fun b => [.wr a c.cmd1WWB, .wr a b])
  | [] => .pure _
  | b :: bs => (writeByte_issues hc b).bind fun _ => writeBytes_issues hc bs

theorem readByte_issues (hc : CommandRows c) : Issues c a readByte [.wr a c.cmd1WRB] :=
  .getConf_bind (.betweenPolls (cmd0_issues hc.w1rb) fun _ => (setPointer_issues _).bind fun _ => tRead_issues)

theorem matchRomBytes_issues (hc : CommandRows c) (id : Identifier) : Issues c a (matchRomBytes id)
    ((c.romMatch :: id.toList).flatMap fun b => [.wr a c.cmd1WWB, .wr a b]) :=
  .getConf_bind ((writeByte_issues hc _).bind fun _ => writeBytes_issues hc _)

/-- `matchROM_proc` returned 1: its bus reset saw presence and its byte writes returned (`41_onewire_bus.md` R136). -/
theorem matchRom_ok_true {id : Identifier} {s u : State} (h : matchRom id s = .ok true u) :
    ∃ t, busReset s = .ok true t ∧ matchRomBytes id t = .ok () u := by
  obtain ⟨present, t, hreset, h⟩ := bind_ok.1 h
  cases present with
  | false => cases h
  | true =>
    obtain ⟨⟨⟩, t', hbytes, h⟩ := bind_ok.1 h
    cases h
    exact ⟨t, hreset, hbytes⟩

theorem matchRom_issued {id : Identifier} {s u : State} (hc : CommandRows s.conf) (h : matchRom id s = .ok true u) :
    Issued (.wr s.addr s.conf.cmd1WRS ::
      (s.conf.romMatch :: id.toList).flatMap fun b => [.wr s.addr s.conf.cmd1WWB, .wr s.addr b]) s u := by
  obtain ⟨t, hreset, hbytes⟩ := matchRom_ok_true h
  have first := busReset_issues hc s _ t rfl rfl hreset
  exact first.trans (matchRomBytes_issues hc id t _ u first.conf first.addr hbytes)

end

/-! ### Host operations -/

/-- The outcome delivered is no transport operation. -/
theorem Issued.deliver {kept : List TransportOp} {s t : State} (h : Issued kept s t) (r : HostOutcome Value) :
    Issued kept s (deliver r t) :=
  ⟨h.conf, h.addr, h.trace⟩

/-- An operation under `host_prim` that ends `OK` ran its body, and its value is made of what the body returned. -/
theorem PrimEnd.of_outcome_ok {α : Type} {allowed : List Mode} {body : Proc α} {value : α → Value} {s t : State}
    {w : Value} (h : PrimEnd allowed body (fun v => deliver (.ok (value v))) s t) (ht : t.outcome = some (.ok w)) :
    ∃ v u, body s = .ok v u ∧ value v = w ∧ t = deliver (.ok w) u := by
  cases h with
  | refused => cases ht
  | ok _ hbody =>
    cases ht
    exact ⟨_, _, hbody, rfl, rfl⟩
  | err => cases ht

theorem execMatchrom_issued {s t : State} {id : Identifier} (hc : CommandRows s.conf)
    (h : exec (.matchrom id) s = .next t) (hok : t.outcome = some (.ok (.bit true))) :
    Issued (.wr s.addr s.conf.cmd1WRS ::
      (s.conf.romMatch :: id.toList).flatMap fun b => [.wr s.addr s.conf.cmd1WWB, .wr s.addr b]) s t := by
  cases h
  obtain ⟨attempted, u, hrun, hattempted, ht⟩ := (endPrim_primEnd _ _ _ s).of_outcome_ok hok
  cases hattempted
  exact ht ▸ (matchRom_issued hc hrun).deliver _

theorem execOwread_issued {s t : State} {v : Byte} (hc : CommandRows s.conf) (h : exec .owread s = .next t)
    (hok : t.outcome = some (.ok (.byte v))) : Issued [.wr s.addr s.conf.cmd1WRB] s t := by
  cases h
  obtain ⟨w, u, hrun, -, ht⟩ := (endPrim_primEnd _ _ _ s).of_outcome_ok hok
  exact ht ▸ (readByte_issues hc s w u rfl rfl hrun).deliver _

/-- Settles O44: what is left of `MATCHROM` is followed by what is left of `OWREAD`. -/
theorem matchromThenOwreadOrder : Obligations.MatchromThenOwreadOrder := by
  intro s t u id v hcodes _ hmatch hmatchOk hread hreadOk
  have hc := commandRows hcodes
  have matched := execMatchrom_issued hc hmatch hmatchOk
  have fetched := execOwread_issued (matched.conf ▸ hc) hread hreadOk
  rw [matched.conf, matched.addr] at fetched
  obtain ⟨ops, htrace, hops⟩ := (matched.trans fetched).trace
  exact ⟨ops, htrace, by simpa [withoutPolls] using hops []⟩

end Sys2Proof.Machine
end

section
/-! PROOFS. `SEARCH` (`42_rom_search.md`): one position of a pass, the empty bus and the single device (R152 to R155,
R162), and the order of discovery (R160). -/

namespace Sys2Proof.Machine

open Sys2Proof.Safety

/-! ### One position of a pass -/

/-- The search triplet of a position, the normal run: `POS` is the position (`42_rom_search.md` R153). -/
theorem searchTriplet_setPos_script {s : State} {w : WriteRun} {rest : List Answer} (hw : w.ok s.conf)
    (henv : s.env = .script (w.answers ++ rest)) (p : Nat) (dir : Bool) :
    searchTriplet dir (s.setPos p) = .ok (idBitFlag s.conf w.after.idle, complementBitFlag s.conf w.after.idle)
      { afterPolls s (w.trace s.conf s.addr s.conf.cmd1WT (directionByte dir)) w.after rest with pos := p } :=
  searchTriplet_script (s := s.setPos p) hw henv dir

theorem searchDirection_eq (p : Nat) (ld : Int) (cand : Identifier) :
    searchDirection p ld cand =
      if (p : Int) < ld then idBit cand p else if (p : Int) = ld then true else false := by
  simp [searchDirection]

/-- Settles O49: the triplet runs as the script answers, and the two bits decide among the cases. -/
theorem searchStepFollowsTheThreeCases : Obligations.SearchStepFollowsTheThreeCases := by
  intro s p newLd w rest hp hw henv dir idb cmp t
  have hdir : searchDirection p s.ld s.cand = dir := searchDirection_eq p s.ld s.cand
  have hrun : searchStep p newLd s =
      if idb && cmp then .error .noDevice t
      else .ok (searchNewLd p idb cmp dir newLd) (t.setCand (withIdBit s.cand p (searchBitTaken idb cmp dir))) := by
    rw [searchStep_run, hdir, searchTriplet_setPos_script hw henv]
    rfl
  refine ⟨fun hid hcmp => by rw [hrun, hid, hcmp]; rfl, fun taken htaken => ?_⟩
  refine ⟨withIdBit s.cand p taken, ?_, fun i _ => idBit_withIdBit s.cand hp i taken⟩
  rw [hrun]
  rcases htaken with ⟨hid, hcmp, rfl⟩ | ⟨hne, rfl⟩
  · rw [hid, hcmp]
    cases dir <;> rfl
  · have hcmp : cmp = !idb := Bool.eq_not.2 hne.symm
    rw [hcmp]
    cases idb <;> rfl

/-! ### The ends of a search -/

/-- A search that returns a set is a loop of passes that ended within its fuel (`42_rom_search.md` R151, R161). -/
theorem searchProc_ok_iff {s t : State} {l : List Identifier} : searchProc s = .ok (some l) t ↔
    searchLoop s.conf.searchFuel (searchFresh s) = .ok true t ∧ l = t.res := by
  constructor
  · intro h
    have hl := searchProc_result h
    obtain ⟨_, _, hconf, h⟩ := bind_ok.1 h
    cases hconf
    obtain ⟨_, _, hfresh, h⟩ := bind_ok.1 h
    cases hfresh
    obtain ⟨finished, u, hloop, h⟩ := bind_ok.1 h
    cases finished <;> cases h
    exact ⟨hloop, hl⟩
  · rintro ⟨hloop, rfl⟩
    rw [searchProc, bind_of_ok (getConf_run s), bind_of_ok (modify_run _ s), bind_of_ok hloop]
    rfl

/-- In `READY` a loop of passes that ends within its fuel delivers `RES`. -/
theorem execSearch_of_loop {s t : State} (hm : s.mode = .ready)
    (hloop : searchLoop s.conf.searchFuel (searchFresh s) = .ok true t) :
    exec .search s = .next (deliver (.ok (.ids t.res)) t) := by
  change execSearch s = _
  rw [execSearch, hostPrim_of_ok (List.mem_singleton.2 hm) (searchProc_ok_iff.2 ⟨hloop, rfl⟩)]

/-- A pass that no other follows is the last the loop makes (`42_rom_search.md` R158). -/
theorem searchLoop_of_pass {s t : State} {e : PassEnd} {n : Nat} (hn : 0 < n) (h : searchPass s = .ok e t)
    (he : e ≠ .again) : searchLoop n s = .ok true t := by
  obtain ⟨n, rfl⟩ := Nat.exists_eq_succ_of_ne_zero hn.ne'
  rw [searchLoop, bind_of_ok h]
  cases e with
  | again => exact absurd rfl he
  | noPresence => rfl
  | last => rfl

/-- More fuel makes no difference to a search that ends (`42_rom_search.md` R161). -/
theorem searchLoop_mono {t : State} (n : Nat) : ∀ {m : Nat} {s : State}, n ≤ m →
    searchLoop n s = .ok true t → searchLoop m s = .ok true t := by
  induction n with
  | zero =>
    intro m s _ h
    cases h
  | succ n ih =>
    intro m s hm h
    obtain ⟨m, rfl⟩ := Nat.exists_eq_succ_of_ne_zero (Nat.ne_zero_of_lt hm)
    obtain ⟨e, u, hpass, h⟩ := bind_ok.1 h
    rw [searchLoop, bind_of_ok hpass]
    cases e with
    | again => exact ih (Nat.le_of_succ_le_succ hm) h
    | noPresence => exact h
    | last => exact h

/-! ### The empty bus -/

/-- A pass without presence ends after its bus reset (`42_rom_search.md` R152). -/
theorem searchPass_of_absent {s t : State} (h : busReset s = .ok false t) : searchPass s = .ok .noPresence t := by
  rw [searchPass, bind_of_ok (getConf_run s), bind_of_ok h]
  rfl

/-- Settles O48: the first pass ends after its bus reset, before anything is found. -/
theorem searchOfEmptyBusIsEmpty : Obligations.SearchOfEmptyBusIsEmpty := by
  intro s r q w rest hm hfuel hr hq hp henv
  have hreset := busReset_script (s := searchFresh s) hr hq henv
  have habsent : presenceFlag (searchFresh s).conf q.idle = false := hp
  rw [habsent] at hreset
  exact execSearch_of_loop hm (searchLoop_of_pass hfuel (searchPass_of_absent hreset) (by decide))

/-! ### One device -/

theorem searchStep_ok_pos {p : Nat} {newLd n : Int} {s t : State} (h : searchStep p newLd s = .ok n t) :
    t.pos = p := by
  rw [searchStep_run] at h
  split at h
  · cases h
  next idb cmp u hu =>
    split at h
    · cases h
    · obtain ⟨-, rfl⟩ := EStateM.Result.ok.inj h
      exact ((searchTriplet_keeps _).of_ok hu).pos

/-- Step 3 leaves `POS` at the last of its positions. -/
theorem searchSteps_ok_pos (ps : List Nat) : ∀ {newLd n : Int} {s t : State},
    searchSteps ps newLd s = .ok n t → t.pos = ps.getLastD s.pos := by
  induction ps with
  | nil =>
    intro newLd n s t h
    cases h
    rfl
  | cons p ps ih =>
    intro newLd n s t h
    obtain ⟨m, u, hstep, h⟩ := bind_ok.1 h
    rw [ih h, searchStep_ok_pos hstep, List.getLastD_cons]

theorem searchBookkeeping_pos (n : Int) (s : State) : (searchBookkeeping n s).pos = s.pos := by
  unfold searchBookkeeping
  dsimp only
  split <;> rfl

/-- A pass with presence ends at position 63. -/
theorem searchPass_ok_pos {s t : State} {e : PassEnd} (h : searchPass s = .ok e t) (he : e ≠ .noPresence) :
    t.pos = 63 := by
  obtain ⟨c, _, -, h⟩ := bind_ok.1 h
  obtain ⟨present, u, -, h⟩ := bind_ok.1 h
  cases present with
  | false =>
    cases h
    exact absurd rfl he
  | true =>
    obtain ⟨_, v, -, h⟩ := bind_ok.1 h
    obtain ⟨n, w, hsteps, h⟩ := bind_ok.1 h
    obtain ⟨_, x, hx, h⟩ := bind_ok.1 h
    cases hx
    cases h
    rw [searchBookkeeping_pos, searchSteps_ok_pos _ hsteps]
    rfl

/-- No member branches off the only one. -/
theorem LastBranch.eq_of_singleton {x : Identifier} {n : Nat} {ld : Int} (h : LastBranch [x] n x ld) : ld = -1 := by
  refine h.branch.resolve_right ?_
  rintro ⟨p, -, -, h0, y, hy, -, h1⟩
  rw [List.mem_singleton.1 hy, h0] at h1
  cases h1

/-- A fresh search on an environment that is ready finds the attached devices. -/
theorem searchFresh_atPass {s : State} {e : RefEnv} (hr : RefReady s e) (hc : RecordParts s.conf) :
    AtPass s.conf (refAttached e) (searchFresh s) e :=
  ⟨rfl, (OnRef.of_ready hr).of_eq rfl rfl, .of_ready hr hc.codes, rfl⟩

/-- Identifiers collected in their order are collected once. -/
theorem Collected.nodup {S : List Identifier} {old : Identifier → Prop} {s : State} (h : Collected S old s) :
    s.res.Nodup := by
  refine h.sorted.imp fun hb => ?_
  rintro rfl
  exact idBefore_irrefl _ hb

/-- Settles O58: the first pass leads to the only device, and leaves no discrepancy. -/
theorem searchOneDeviceOnReferenceEnvironment : Obligations.SearchOneDeviceOnReferenceEnvironment := by
  intro s e x hr hc hm hfuel hx hvalid
  have hparts := recordParts hc
  have hstart := searchFresh_atPass hr hparts
  rw [hx] at hstart
  have hnone : Collected [x] (fun _ => False) (searchFresh s) :=
    ⟨by simp [searchFresh], by simp [searchFresh]⟩
  obtain ⟨t, f, hpass, ht, -⟩ := searchPass_afterPass hparts (List.cons_ne_nil x []) hstart hnone
    fun y hy hfollows => nextMember_first hy hfollows
  have hcand : t.cand = x := List.mem_singleton.1 ht.cand
  have hld : t.ld = -1 := LastBranch.eq_of_singleton (hcand ▸ ht.last)
  rw [hld, if_pos (by decide)] at hpass
  have hres : t.res = [x] := by
    refine (List.perm_ext_iff_of_nodup ht.collected.nodup (List.nodup_singleton x)).2 (fun y => ?_) |>.eq_singleton
    rw [ht.collected.mem, and_iff_left_of_imp]
    intro hy
    rw [List.mem_singleton.1 hy, hcand, ht.conf]
    exact ⟨hvalid, idBefore_irrefl x⟩
  have hloop := searchLoop_of_pass hfuel hpass (by decide)
  have hmode : t.mode = .ready := (searchPass_keeps.of_ok hpass).mode.trans hm
  have hpos : t.pos = 63 := searchPass_ok_pos hpass (by decide)
  exact ⟨_, execSearch_of_loop hm hloop, by rw [hres]; rfl, hmode, hld, hcand, hpos, hres⟩

/-! ### The order of discovery -/

/-- A `SEARCH` that delivers a set ended within its fuel, and the set is `RES` (`42_rom_search.md` R158, R161). -/
theorem execSearch_ok_loop {s t : State} {v : Value} (h : exec .search s = .next t) (hv : t.outcome = some (.ok v)) :
    ∃ u, searchLoop s.conf.searchFuel (searchFresh s) = .ok true u ∧ v = .ids u.res := by
  rcases execSearch_cases h with ⟨-, rfl⟩ | ⟨-, u, hrun, rfl⟩ | ⟨-, e, u, -, rfl⟩
  · cases hv
  · cases hv
    exact ⟨u, (searchProc_ok_iff.1 hrun).1, rfl⟩
  · cases hv

/-- Settles O60: with fuel enough for every attached device the search would end as it does, and would have collected
the devices in their order. -/
theorem searchOrderOnReferenceEnvironment : Obligations.SearchOrderOnReferenceEnvironment := by
  intro s t e l hr hc _ h hl
  obtain ⟨u, hloop, hlu⟩ := execSearch_ok_loop h hl
  cases hlu
  obtain ⟨v, hloop', hv⟩ := searchLoop_ref_fresh (n := max s.conf.searchFuel ((refAttached e).length + 1))
    (recordParts hc) (searchFresh_atPass hr (recordParts hc)) rfl rfl (by omega) (by omega)
  have hmore := searchLoop_mono _ (le_max_left _ ((refAttached e).length + 1)) hloop
  cases hmore.symm.trans hloop'
  exact hv.sorted

end Sys2Proof.Machine
end

section
/-! PROOFS. The Checksum Codec (`43_checksum.md`): `crc8` is linear over GF(2) (R174), a register fed its own value
becomes zero (R173), and with a polynomial whose bit 7 is set no other byte does that. -/

namespace Sys2Proof.Machine

/-! ### One bit step and one byte -/

theorem crcBit_xor (poly r s : Byte) (a b : Bool) :
    crcBit poly (r ^^^ s) (a ^^ b) = crcBit poly r a ^^^ crcBit poly s b := by
  have hmix : ((r ^^^ s).getLsbD 0 != (a ^^ b)) = ((r.getLsbD 0 != a) ^^ (s.getLsbD 0 != b)) := by
    simp [Bool.xor_left_comm]
  simp only [crcBit, hmix, BitVec.ushiftRight_xor_distrib]
  cases r.getLsbD 0 != a <;> cases s.getLsbD 0 != b
  · rfl
  · exact BitVec.xor_assoc _ _ _
  · change r >>> 1 ^^^ s >>> 1 ^^^ poly = r >>> 1 ^^^ poly ^^^ s >>> 1
    ac_rfl
  · have hcancel : r >>> 1 ^^^ poly ^^^ (s >>> 1 ^^^ poly) = r >>> 1 ^^^ s >>> 1 ^^^ (poly ^^^ poly) := by ac_rfl
    simp [hcancel]

theorem crcByte_xor (poly r s a b : Byte) :
    crcByte poly (r ^^^ s) (a ^^^ b) = crcByte poly r a ^^^ crcByte poly s b :=
  List.foldl_hom₂ _ (· ^^^ ·) _ _ _ _ _ fun r s k => by rw [BitVec.getLsbD_xor, crcBit_xor]

/-- The bit steps of a byte equal to the register only shift (`43_checksum.md` R173). -/
theorem crcBits_self (poly c : Byte) (n : Nat) :
    (List.range n).foldl (fun r k => crcBit poly r (c.getLsbD k)) c = c >>> n := by
  induction n with
  | zero => simp
  | succ n ih =>
    have hmix : ((c >>> n).getLsbD 0 != c.getLsbD n) = false := by simp
    rw [List.range_succ, List.foldl_append, ih, List.foldl_cons, List.foldl_nil, crcBit, hmix,
      if_neg Bool.false_ne_true, BitVec.shiftRight_add]

@[simp] theorem crcByte_self (poly c : Byte) : crcByte poly c c = 0 :=
  (crcBits_self poly c 8).trans (BitVec.ushiftRight_eq_zero le_rfl)

/-- The shift clears bit 7, so a step that mixed in a polynomial with that bit set does not end in zero. -/
theorem eq_zero_of_crcBit_eq_zero {poly r : Byte} (hp : poly.msb = true) (h : crcBit poly r false = 0) : r = 0 := by
  rw [crcBit] at h
  split at h
  · have hpoly : r >>> 1 = poly := BitVec.xor_eq_zero_iff.1 h
    simp [← hpoly, BitVec.msb_ushiftRight] at hp
  next hbit =>
    have heven : r.toNat % 2 = 0 := by simpa [BitVec.getLsbD, Nat.testBit_zero] using hbit
    bv_omega

/-- Zero bits clear the register only where it is clear. -/
theorem eq_zero_of_crcBits_zero {poly : Byte} (hp : poly.msb = true) (l : List Nat) {c : Byte}
    (h : l.foldl (fun r k => crcBit poly r ((0 : Byte).getLsbD k)) c = 0) : c = 0 := by
  induction l generalizing c with
  | nil => exact h
  | cons k l ih =>
    rw [List.foldl_cons, BitVec.ofNat_eq_ofNat, BitVec.getLsbD_zero] at h
    exact eq_zero_of_crcBit_eq_zero hp (ih h)

/-- A byte clears the register exactly when it is the register's value. -/
theorem crcByte_eq_zero_iff {poly c b : Byte} (hp : poly.msb = true) : crcByte poly c b = 0 ↔ c = b := by
  constructor
  · intro h
    have hdiff : crcByte poly (c ^^^ b) 0 = 0 := by
      simpa [h] using crcByte_xor poly c b b b
    exact BitVec.xor_eq_zero_iff.1 (eq_zero_of_crcBits_zero hp _ hdiff)
  · rintro rfl
    exact crcByte_self poly c

/-! ### Byte strings -/

@[simp] theorem crc8_append_singleton (poly : Byte) (d : List Byte) (b : Byte) :
    crc8 poly (d ++ [b]) = crcByte poly (crc8 poly d) b := by
  simp [crc8]

/-- Linearity from any two registers: that of a byte, along both strings. -/
theorem foldl_crcByte_zipWith_xor (poly : Byte) {a b : List Byte} (h : a.length = b.length) (r s : Byte) :
    (List.zipWith (· ^^^ ·) a b).foldl (crcByte poly) (r ^^^ s) =
      a.foldl (crcByte poly) r ^^^ b.foldl (crcByte poly) s := by
  induction a generalizing b r s with
  | nil =>
    cases b with
    | nil => rfl
    | cons y b => cases h
  | cons x a ih =>
    cases b with
    | nil => cases h
    | cons y b =>
      simp only [List.zipWith_cons_cons, List.foldl_cons, crcByte_xor]
      exact ih (Nat.succ.inj h) _ _

theorem crc8_replicate_zero (poly : Byte) (n : Nat) : crc8 poly (List.replicate n 0) = 0 := by
  induction n with
  | zero => rfl
  | succ n ih => rw [List.replicate_succ', crc8_append_singleton, ih, crcByte_self]

/-! ### Identifiers -/

theorem idValid_iff {c : ConfigRecord} {id : Identifier} :
    idValid c id = true ↔ crc8 c.crcPoly (idFirst7 id) = idByte id 7 := beq_iff_eq

theorem toList_eq_idFirst7_append (id : Identifier) : id.toList = idFirst7 id ++ [idByte id 7] := by
  obtain ⟨⟨l⟩, hl⟩ := id
  match l, hl with
  | [b0, b1, b2, b3, b4, b5, b6, b7], _ => rfl

theorem idValid_iff_crc8_toList_eq_zero {c : ConfigRecord} (hp : c.crcPoly.msb = true) (id : Identifier) :
    idValid c id = true ↔ crc8 c.crcPoly id.toList = 0 := by
  rw [idValid_iff, toList_eq_idFirst7_append, crc8_append_singleton, crcByte_eq_zero_iff hp]

/-- The first seven bytes decide the last one of a valid identifier (`43_checksum.md` R174). -/
theorem eq_of_idValid_of_idFirst7_eq {c : ConfigRecord} {x y : Identifier} (hx : idValid c x = true)
    (hy : idValid c y = true) (h : idFirst7 x = idFirst7 y) : x = y := by
  have hlast : idByte x 7 = idByte y 7 := by rw [← idValid_iff.1 hx, h, idValid_iff.1 hy]
  rw [← Vector.toList_inj, toList_eq_idFirst7_append, h, hlast, ← toList_eq_idFirst7_append]

/-! ### The statements -/

/-- Settles O23: linearity goes from the bit step to the byte and from the byte to the string. -/
theorem crc8IsLinear : Obligations.Crc8IsLinear :=
  ⟨fun poly _ _ h => foldl_crcByte_zipWith_xor poly h 0 0, crc8_replicate_zero,
    fun c => ⟨idValid_iff.2 (crc8_replicate_zero c.crcPoly 7), fun _ _ => eq_of_idValid_of_idFirst7_eq⟩⟩

/-- Settles O24: the last byte is the register's own value. -/
theorem crc8OfStringAndChecksumIsZero : Obligations.Crc8OfStringAndChecksumIsZero := by
  intro poly d
  rw [crc8_append_singleton, crcByte_self]

/-- Settles O25: bit 7 of 0x8C is set, so the eighth byte clears the register only as its own value. -/
theorem validIffChecksumOfAllEightIsZero : Obligations.ValidIffChecksumOfAllEightIsZero := by
  intro c b0 b1 b2 b3 b4 b5 b6 b7 hc
  have hp : c.crcPoly.msb = true := by rw [hc]; rfl
  exact ⟨idValid_iff, idValid_iff_crc8_toList_eq_zero hp _⟩

/-- Settles O22: 0x30 is the code of `CRC8`, and its operand bytes are read back. -/
theorem crc8ReturnsChecksum : Obligations.Crc8ReturnsChecksum := by
  intro d s
  refine ⟨rfl, fun hd => decode_eq_ok_iff.2 ⟨.crc8, rfl, ?_⟩⟩
  simpa [operandBytes, opOf] using operands_operandBytes (c := s.conf) (i := .crc8 d) (decide_eq_true hd) []

/-- Settles O26: the checksums evaluated; the identifier is valid by the last of its running values but one. -/
theorem crc8WorkedValues : Obligations.Crc8WorkedValues := by
  refine ⟨by decide, by decide, by decide, by decide +kernel, by decide +kernel, fun c hc => idValid_iff.2 ?_⟩
  rw [hc]
  decide +kernel

end Sys2Proof.Machine
end

section
/-! PROOFS. How a host operation ends (`60_exceptions.md` R180, R186, R189 to R193): refused by one of its two checks,
with `OK`, or with an error of its body. Said once for all of them; the whole-machine rules are read off it. -/

namespace Sys2Proof.Machine

open Sys2Proof.Safety

/-! ### The ends of a host operation -/

/-- The body a host operation runs; `CRC8`, and `SELCH` on `SINGLE` (`40_bridge_controller.md` R111), issue nothing. -/
inductive HostBody : Instr → {α : Type} → Proc α → Prop
  | init (addr ch : Byte) : HostBody (.init addr ch) (initBody (channelBits ch))
  | selchSingle (ch : Byte) : HostBody (.selch ch) (pure () : Proc Unit)
  | selchMulti (ch : Byte) : HostBody (.selch ch) (pollUntilIdle >>= fun _ => selchSequence (channelBits ch))
  | owreset : HostBody .owreset busReset
  | owwrite (b : Byte) : HostBody (.owwrite b) (writeByte b)
  | owread : HostBody .owread readByte
  | matchrom (id : Identifier) : HostBody (.matchrom id) (matchRom id)
  | search : HostBody .search searchProc
  | crc8 (data : List Byte) : HostBody (.crc8 data) (pure () : Proc Unit)

/-- Where the body starts: `INIT` has written `MODE` and `ADDR` before (`40_bridge_controller.md` R104). -/
def bodyStart : Instr → State → State
  | .init addr _, s => (s.setMode .uninit).setAddr (addrBits s.conf addr)
  | _, s => s

@[simp] theorem bodyStart_conf (i : Instr) (s : State) : (bodyStart i s).conf = s.conf := by cases i <;> rfl

@[simp] theorem bodyStart_trace (i : Instr) (s : State) : (bodyStart i s).trace = s.trace := by cases i <;> rfl

/-- `MODE` after `OK` (`60_exceptions.md` R191, R193). -/
def modeAfterOk : Instr → Mode → Mode
  | .init _ _, _ | .owreset, _ => .ready
  | _, m => m

/-- The operations under `host_prim` (`41_onewire_bus.md` R129, `42_rom_search.md` R150). -/
def IsPrimitive (i : Instr) : Prop :=
  i = .owreset ∨ (∃ b, i = .owwrite b) ∨ i = .owread ∨ (∃ id, i = .matchrom id) ∨ i = .search

/-- Which errors a host operation raises, and where (`60_exceptions.md` R181 to R184, R191). -/
inductive RaisedAt : Instr → ErrorSite → Err → Prop
  | init (addr ch : Byte) (e : Err) : RaisedAt (.init addr ch) .init e
  | selchPoll (ch : Byte) {e : Err} (he : PrimitiveErr e) : RaisedAt (.selch ch) .selchPoll e
  | selchSequence (ch : Byte) {e : Err} (he : e = .transport ∨ e = .initialization) :
    RaisedAt (.selch ch) .selchSequence e
  | primitive {i : Instr} (hi : IsPrimitive i) {e : Err} (he : PrimitiveErr e) : RaisedAt i .primitive e
  | noDevice : RaisedAt .search .primitive .noDevice

/-- How a host operation ends (`60_exceptions.md` R189): refused by the operand check, refused by the mode check, or as
its body does. -/
inductive HostEnd (i : Instr) (s : State) : State → Prop
  | badOperand (hop : operandsLegal s.conf i = false) : HostEnd i s (refuse .badOperand s)
  | notReady (hop : operandsLegal s.conf i = true) (hm : admitted s.mode i = false) : HostEnd i s (refuse .notReady s)
  | ok (hop : operandsLegal s.conf i = true) (hm : admitted s.mode i = true) {α : Type} {p : Proc α}
    (hp : HostBody i p) {a : α} {u : State} (hrun : p (bodyStart i s) = .ok a u) (ch : BitVec 3) (v : Value) :
    HostEnd i s (deliver (.ok v) ((u.setCh ch).setMode (modeAfterOk i s.mode)))
  | err (hop : operandsLegal s.conf i = true) (hm : admitted s.mode i = true) {α : Type} {p : Proc α}
    (hp : HostBody i p) {e : Err} {u : State} (hrun : p (bodyStart i s) = .error e u) {site : ErrorSite}
    (he : RaisedAt i site e) (hmode : site = .primitive → u.mode = s.mode) : HostEnd i s (takeError site e u)

section
variable {s t : State}

/-- An operation that leaves `MODE` when it ends `OK`. -/
theorem deliver_setMode_modeAfterOk {i : Instr} {u : State} (hok : modeAfterOk i s.mode = s.mode)
    (hu : u.mode = s.mode) (ch : BitVec 3) (r : HostOutcome Value) :
    deliver r ((u.setCh ch).setMode (modeAfterOk i s.mode)) = deliver r (u.setCh ch) := by
  rw [hok, ← hu]
  rfl

/-- An operation under `host_prim`, whose operands are all legal. -/
theorem primEnd_hostEnd {i : Instr} {α : Type} {allowed : List Mode} {body : Proc α} {finish : α → State → State}
    (hop : operandsLegal s.conf i = true) (hm : admitted s.mode i = true ↔ s.mode ∈ allowed) (hp : HostBody i body)
    (hstart : bodyStart i s = s) (hkeeps : Keeps SearchFrame body) (hraises : Raises (RaisedAt i .primitive) body)
    (hfinish : ∀ v u, u.mode = s.mode →
      ∃ w, finish v u = deliver (.ok w) ((u.setCh u.ch).setMode (modeAfterOk i s.mode)))
    (h : PrimEnd allowed body finish s t) : HostEnd i s t := by
  cases h with
  | refused hne => exact .notReady hop (Bool.eq_false_iff.2 fun ha => hne (hm.1 ha))
  | @ok ha v u hrun =>
    obtain ⟨w, hw⟩ := hfinish v u (hkeeps.of_ok hrun).mode
    exact hw ▸ .ok hop (hm.2 ha) hp (hstart.symm ▸ hrun) _ _
  | @err ha e u hrun =>
    exact .err hop (hm.2 ha) hp (hstart.symm ▸ hrun) (hraises _ _ _ hrun) fun _ => (hkeeps.of_error hrun).mode

/-- The operations under `host_prim` that are admitted in `READY` alone and leave `MODE` when they end `OK`. -/
theorem endPrim_hostEnd {i : Instr} {α : Type} {body : Proc α} (value : α → Value)
    (hop : operandsLegal s.conf i = true) (hm : admitted s.mode i = decide (s.mode = .ready)) (hi : IsPrimitive i)
    (hok : modeAfterOk i s.mode = s.mode) (hstart : bodyStart i s = s) (hp : HostBody i body)
    (hkeeps : Keeps BusFrame body) (hraises : Raises PrimitiveErr body) :
    HostEnd i s (endPrim value (hostPrim [.ready] body s)) :=
  primEnd_hostEnd hop (by simp [hm]) hp hstart (hkeeps.mono fun _ _ => BusFrame.toSearchFrame)
    (hraises.mono fun _ => .primitive hi) (fun v u hu => ⟨value v, (deliver_setMode_modeAfterOk hok hu u.ch _).symm⟩)
    (endPrim_primEnd [.ready] body value s)

theorem execOwreset_hostEnd (h : exec .owreset s = .next t) : HostEnd .owreset s t :=
  primEnd_hostEnd rfl (by cases hm : s.mode <;> simp [admitted]) .owreset rfl
    (busReset_keeps.mono fun _ _ => BusFrame.toSearchFrame) (busReset_raises.mono fun _ => .primitive (.inl rfl))
    (fun p u _ => ⟨.bit p, rfl⟩) (execOwreset_primEnd h)

theorem searchProc_raisedAt : Raises (RaisedAt .search .primitive) searchProc := by
  refine searchProc_raises.mono ?_
  rintro e (he | rfl)
  · exact .primitive (.inr (.inr (.inr (.inr rfl)))) he
  · exact .noDevice

/-- `SEARCH`, where it does not hang, ends as an operation under `host_prim` does. -/
theorem execSearch_primEnd (h : exec .search s = .next t) :
    PrimEnd [.ready] searchProc (fun _ u => deliver (.ok (.ids u.res)) u) s t := by
  rcases execSearch_cases h with ⟨hm, rfl⟩ | ⟨hm, u, hu, rfl⟩ | ⟨hm, e, u, hu, rfl⟩
  · exact .refused (by simpa using hm)
  · exact .ok (by simpa using hm) hu
  · exact .err (by simpa using hm) hu

theorem execSearch_hostEnd (h : exec .search s = .next t) : HostEnd .search s t :=
  primEnd_hostEnd rfl (by simp [admitted]) .search rfl searchProc_keeps searchProc_raisedAt
    (fun _ u hu => ⟨.ids u.res, (deliver_setMode_modeAfterOk rfl hu u.ch _).symm⟩) (execSearch_primEnd h)

theorem operandsLegal_init (c : ConfigRecord) (addr ch : Byte) :
    operandsLegal c (.init addr ch) = initOperandsLegal c addr ch := rfl

theorem operandsLegal_selch (c : ConfigRecord) (ch : Byte) : operandsLegal c (.selch ch) = channelLegal c ch := rfl

theorem execInit_hostEnd {addr ch : Byte} (h : exec (.init addr ch) s = .next t) : HostEnd (.init addr ch) s t := by
  obtain rfl := Host.Outcome.next.inj h
  split
  next hop =>
    rw [← operandsLegal_init] at hop
    unfold initAccepted
    split
    next u hu => exact .ok hop rfl (.init addr ch) hu _ _
    next e u hu => exact .err hop rfl (.init addr ch) hu (.init addr ch e) nofun
  next hop => exact .badOperand (by simpa [operandsLegal_init] using hop)

/-- A legal `SELCH` in `READY` on `MULTI8`: the error of its poll, the error of its sequence, or the channel selected
(`40_bridge_controller.md` R113). -/
theorem selchMulti_hostEnd {ch : Byte} (hop : operandsLegal s.conf (.selch ch) = true) (hm : s.mode = .ready) :
    HostEnd (.selch ch) s (selchMulti ch s) := by
  have hadm : admitted s.mode (.selch ch) = true := by simp [admitted, hm]
  cases hpoll : pollUntilIdle s with
  | error e t =>
    rw [selchMulti_of_poll_error hpoll]
    have hraised := pollUntilIdle_raises _ _ _ hpoll
    exact .err hop hadm (.selchMulti ch) (bind_of_error hpoll _) (.selchPoll ch hraised) nofun
  | ok v t =>
    cases hsequence : selchSequence (channelBits ch) t with
    | error e u =>
      rw [selchMulti_of_sequence_error hpoll hsequence]
      exact .err hop hadm (.selchMulti ch) ((bind_of_ok hpoll _).trans hsequence)
        (.selchSequence ch (selchSequence_raises _ _ _ _ hsequence)) nofun
    | ok _ u =>
      have hmode : u.mode = s.mode :=
        ((selchSequence_keeps _).of_ok hsequence).mode.trans (pollUntilIdle_keeps.of_ok hpoll).mode
      rw [selchMulti_of_ok hpoll hsequence, ← deliver_setMode_modeAfterOk (i := .selch ch) rfl hmode]
      exact .ok hop hadm (.selchMulti ch) ((bind_of_ok hpoll _).trans hsequence) _ _

theorem execSelch_hostEnd {ch : Byte} (h : exec (.selch ch) s = .next t) : HostEnd (.selch ch) s t := by
  obtain rfl := Host.Outcome.next.inj h
  split
  next hop =>
    rw [← operandsLegal_selch] at hop
    split
    next hm =>
      unfold selchReady
      split
      · exact .ok hop (by simp [admitted, hm]) (.selchSingle ch) (pure_run () s) s.ch .none
      · exact selchMulti_hostEnd hop hm
    next hm => exact .notReady hop (by simpa [admitted] using hm)
  next hop => exact .badOperand (by simpa [operandsLegal_selch] using hop)

/-- Every host operation that answers a next state ends in one of these ways. -/
theorem exec_hostEnd {i : Instr} (hi : isHostOp i = true) (h : exec i s = .next t) : HostEnd i s t := by
  cases i with
  | init addr ch => exact execInit_hostEnd h
  | selch ch => exact execSelch_hostEnd h
  | owreset => exact execOwreset_hostEnd h
  | owwrite b =>
    exact Host.Outcome.next.inj h ▸ endPrim_hostEnd _ rfl rfl (.inr (.inl ⟨b, rfl⟩)) rfl rfl (.owwrite b)
      (writeByte_keeps b) (writeByte_raises b)
  | owread =>
    exact Host.Outcome.next.inj h ▸ endPrim_hostEnd _ rfl rfl (.inr (.inr (.inl rfl))) rfl rfl .owread
      readByte_keeps readByte_raises
  | matchrom id =>
    exact Host.Outcome.next.inj h ▸ endPrim_hostEnd _ rfl rfl (.inr (.inr (.inr (.inl ⟨id, rfl⟩)))) rfl rfl
      (.matchrom id) (matchRom_keeps id) (matchRom_raises id)
  | search => exact execSearch_hostEnd h
  | crc8 data => exact Host.Outcome.next.inj h ▸ .ok rfl rfl (.crc8 data) (pure_run () s) s.ch _
  | _ => cases hi

end

theorem isHostOp_iff {i : Instr} : isHostOp i = true ↔ formatOf (opOf i) = .H := decide_eq_true_iff

/-! ### Refusals and completion -/

/-- `INIT` and `SELCH`, the instructions whose operands are checked (`30_encoding.md` R82), check them before anything
else. -/
theorem exec_badOperand {i : Instr} {s : State} (hop : operandsLegal s.conf i = false) :
    exec i s = .next (refuse .badOperand s) := by
  have hne : ¬ operandsLegal s.conf i = true := by simp [hop]
  cases i with
  | init addr ch => exact congrArg Host.Outcome.next (if_neg hne)
  | selch ch => exact congrArg Host.Outcome.next (if_neg hne)
  | _ => cases hop

/-- Settles O14: the check refuses whatever `MODE` is. -/
theorem badOperandIsRefusedInEveryMode : Obligations.BadOperandIsRefusedInEveryMode :=
  fun _ _ hop => exec_badOperand hop

theorem exec_completes {i : Instr} (hi : i ≠ .search) (s : State) : ∃ t, exec i s = .next t := by
  cases i with
  | search => exact absurd rfl hi
  | _ => exact ⟨_, rfl⟩

/-- Only in `READY` can a `SEARCH` hang (`42_rom_search.md` R161; log 7). -/
theorem execSearch_completes_or_hangs (s : State) :
    (∃ t, exec .search s = .next t) ∨ (s.mode = .ready ∧ exec .search s = .fault .searchHang) := by
  change (∃ t, execSearch s = .next t) ∨ (s.mode = .ready ∧ execSearch s = .fault .searchHang)
  unfold execSearch
  rcases hostPrim_cases [.ready] searchProc s with ⟨-, h⟩ | ⟨hm, r, u, -, h⟩ | ⟨-, e, u, -, h⟩ <;> rw [h]
  · exact .inl ⟨_, rfl⟩
  · cases r with
    | none => exact .inr ⟨by simpa using hm, rfl⟩
    | some l => exact .inl ⟨_, rfl⟩
  · exact .inl ⟨_, rfl⟩

theorem exec_outcome_isSome {i : Instr} {s t : State} (h : exec i s = .next t) : t.outcome.isSome = true := by
  by_cases hi : isHostOp i = true
  · cases exec_hostEnd hi h <;> rfl
  · obtain ⟨p, hx, -⟩ := exec_fragment (mt isHostOp_iff.2 hi) s
    obtain rfl := Host.Outcome.next.inj (hx.symm.trans h)
    rcases runFragment_cases p s with ⟨-, hf⟩ | ⟨-, u, -, hf⟩ | ⟨-, e, u, -, hf⟩ <;> rw [hf] <;> rfl

/-- What every instruction that answers a next state leaves. -/
theorem exec_completion {i : Instr} {s t : State} (h : exec i s = .next t) : t.outcome.isSome = true ∧
    t.conf = s.conf ∧ t.inbox = s.inbox ∧ s.trace <+: t.trace := by
  obtain ⟨hconf, hinbox⟩ := exec_conf_inbox h
  obtain ⟨ops, htrace, -⟩ := noTransportOperationFollowsAFailedOne i s t h
  exact ⟨exec_outcome_isSome h, hconf, hinbox, ops, htrace.symm⟩

/-- Settles O9: `SEARCH` alone has a branch that is no next state. -/
theorem everyInstructionCompletes : Obligations.EveryInstructionCompletes := by
  refine ⟨fun i s hi => ?_, fun s => ?_⟩
  · obtain ⟨t, h⟩ := exec_completes hi s
    exact ⟨t, h, exec_completion h⟩
  · exact (execSearch_completes_or_hangs s).imp (fun ⟨t, h⟩ => ⟨t, h, exec_completion h⟩) And.right

/-- A host operation that is refused does nothing but say so. -/
theorem HostEnd.refused {i : Instr} {s t : State} {r : RefusedReason} (h : HostEnd i s t)
    (hr : t.outcome = some (.refused r)) :
    t = refuse r s := by
  cases h with
  | badOperand hop => cases hr; rfl
  | notReady hop hm => cases hr; rfl
  | ok hop hm hp hrun ch v => cases hr
  | err hop hm hp hrun he hmode => cases hr

/-- Settles O15: a host operation by its ends; a fragment (log 9) is refused in `UNINIT` alone. -/
theorem refusedChangesNothing : Obligations.RefusedChangesNothing := by
  intro i s t r h hr
  by_cases hi : isHostOp i = true
  · exact (exec_hostEnd hi h).refused hr
  · obtain ⟨p, hx, -⟩ := exec_fragment (mt isHostOp_iff.2 hi) s
    obtain rfl := Host.Outcome.next.inj (hx.symm.trans h)
    rcases runFragment_cases p s with ⟨-, hf⟩ | ⟨-, u, -, hf⟩ | ⟨-, e, u, -, hf⟩ <;> rw [hf] at hr ⊢ <;> cases hr
    rfl

/-- An operation that is not admitted completes: a `SEARCH` that could hang is admitted. -/
theorem exec_completes_of_not_admitted {i : Instr} {s : State} (hm : admitted s.mode i = false) :
    ∃ t, exec i s = .next t := by
  by_cases hi : i = .search
  · subst hi
    exact (execSearch_completes_or_hangs s).resolve_right fun ⟨hready, _⟩ => by simp [admitted, hready] at hm
  · exact exec_completes hi s

/-- Settles O13: the mode check decides between the refusal and the ends of the body. -/
theorem admissionByMode : Obligations.AdmissionByMode := by
  intro i s hi hop
  refine ⟨fun hm => ?_, fun hm t r h hr => ?_⟩
  · obtain ⟨t, h⟩ := exec_completes_of_not_admitted hm
    rw [h]
    cases exec_hostEnd hi h with
    | badOperand hbad => simp [hop] at hbad
    | notReady _ _ => rfl
    | ok _ ha => simp [hm] at ha
    | err _ ha => simp [hm] at ha
  · cases exec_hostEnd hi h with
    | badOperand hbad => simp [hop] at hbad
    | notReady _ hne => simp [hm] at hne
    | ok _ _ _ _ _ v => cases hr
    | err => cases hr

end Sys2Proof.Machine
end

section
/-! PROOFS. `MODE` over a step (`60_exceptions.md` R191, R193): what leads out of `UNINIT` and what leads to `READY`. -/

namespace Sys2Proof.Machine

open Sys2Proof.Safety

/-! ### `MODE` at the end of a host operation -/

/-- The operations that lead to `READY` when they end `OK` (`60_exceptions.md` R193). -/
def Recovers (i : Instr) : Prop := (∃ addr ch, i = .init addr ch) ∨ i = .owreset

theorem modeAfterOk_of_recovers {i : Instr} (h : Recovers i) (m : Mode) : modeAfterOk i m = .ready := by
  rcases h with ⟨addr, ch, rfl⟩ | rfl <;> rfl

theorem modeAfterOk_of_not_recovers {i : Instr} (h : ¬ Recovers i) (m : Mode) : modeAfterOk i m = m := by
  cases i with
  | init addr ch => exact absurd (.inl ⟨addr, ch, rfl⟩) h
  | owreset => exact absurd (.inr rfl) h
  | _ => rfl

/-- No error leads to `READY` (`60_exceptions.md` R191). -/
theorem modeAfterError_ready {site : ErrorSite} {e : Err} {m : Mode} (h : modeAfterError site e m = .ready) :
    m = .ready := by
  cases site with
  | primitive =>
    cases e with
    | noDevice => exact h
    | initialization => exact h
    | transport => cases h
    | timeout => cases h
  | init => cases h
  | selchPoll => cases h
  | selchSequence => cases h

/-- In `UNINIT` only `INIT` and `CRC8` do anything (`60_exceptions.md` R190). -/
theorem admitted_uninit {i : Instr} (h : admitted .uninit i = true) :
    (∃ addr ch, i = .init addr ch) ∨ ∃ data, i = .crc8 data := by
  cases i with
  | init addr ch => exact .inl ⟨addr, ch, rfl⟩
  | crc8 data => exact .inr ⟨data, rfl⟩
  | _ => cases h

section
variable {i : Instr} {s t : State}

/-- `MODE` and outcome of a host operation: a refusal, `OK`, or an error raised where the operation can raise it. -/
theorem HostEnd.mode_cases (h : HostEnd i s t) :
    ((∃ r, t.outcome = some (.refused r)) ∧ t.mode = s.mode) ∨
    (admitted s.mode i = true ∧ (∃ v, t.outcome = some (.ok v)) ∧ t.mode = modeAfterOk i s.mode) ∨
    (admitted s.mode i = true ∧ ∃ site e, RaisedAt i site e ∧ t.outcome = some (.err (reportedError site e)) ∧
      t.mode = modeAfterError site e s.mode) := by
  cases h with
  | badOperand hop => exact .inl ⟨⟨_, rfl⟩, rfl⟩
  | notReady hop hm => exact .inl ⟨⟨_, rfl⟩, rfl⟩
  | ok hop hm hp hrun ch v => exact .inr (.inl ⟨hm, ⟨v, rfl⟩, rfl⟩)
  | @err hop hm α p hp e u hrun site he hmode =>
    refine .inr (.inr ⟨hm, site, e, he, rfl, ?_⟩)
    cases site with
    | primitive => rw [takeError_mode, hmode rfl]
    | init => rfl
    | selchPoll => rfl
    | selchSequence => rfl

/-- Only a recovering operation that ends `OK` leads to `READY` from another mode (`60_exceptions.md` R193). -/
theorem HostEnd.to_ready (h : HostEnd i s t) (hs : s.mode ≠ .ready) (ht : t.mode = .ready) :
    admitted s.mode i = true ∧ Recovers i ∧ ∃ v, t.outcome = some (.ok v) := by
  rcases h.mode_cases with ⟨-, hm⟩ | ⟨ha, hv, hm⟩ | ⟨-, site, e, -, -, hm⟩
  · exact absurd (hm.symm.trans ht) hs
  · refine ⟨ha, by_contra fun hr => hs ?_, hv⟩
    rw [← modeAfterOk_of_not_recovers hr s.mode, ← hm, ht]
  · exact absurd (modeAfterError_ready (hm.symm.trans ht)) hs

/-- Out of `UNINIT` a host operation can lead to `READY` only (`60_exceptions.md` R191). -/
theorem HostEnd.from_uninit (h : HostEnd i s t) (hs : s.mode = .uninit) (ht : t.mode ≠ .uninit) :
    t.mode = .ready := by
  rcases h.mode_cases with ⟨-, hm⟩ | ⟨-, -, hm⟩ | ⟨ha, site, e, he, -, hm⟩
  · exact absurd (hm.trans hs) ht
  · by_cases hr : Recovers i
    · exact hm.trans (modeAfterOk_of_recovers hr _)
    · exact absurd ((hm.trans (modeAfterOk_of_not_recovers hr _)).trans hs) ht
  · rcases admitted_uninit (hs ▸ ha) with ⟨addr, ch, rfl⟩ | ⟨data, rfl⟩
    · cases he with
      | init => exact absurd hm ht
      | primitive hi => simp [IsPrimitive] at hi
    · cases he with
      | primitive hi => simp [IsPrimitive] at hi

/-- `INIT` that ends `OK` answers no value (`30_encoding.md` R85). -/
theorem execInit_ok_none {addr ch : Byte} {v : Value} (h : exec (.init addr ch) s = .next t)
    (hv : t.outcome = some (.ok v)) : t.outcome = some (.ok .none) := by
  obtain rfl : v = .none := exec_answers h v hv
  exact hv

/-! ### Steps -/

/-- A step that changes `MODE` is a reset of the block, or it runs a packet of the block's own format and `MODE` moves
as that host operation ends. -/
theorem step_mode_cases (h : step s = .next t) : t.mode = s.mode ∨ t.mode = .uninit ∨
    ∃ bytes rest i tail, s.inbox = .op .H bytes :: rest ∧ decode s.conf .H bytes = .ok (i, tail) ∧
      exec i (s.setInbox rest) = .next t ∧ HostEnd i (s.setInbox rest) t := by
  unfold step at h
  split at h
  next => exact .inl (Host.Outcome.next.inj h ▸ rfl)
  next f bytes rest hinbox =>
    unfold runPacket at h
    split at h
    next i tail hdecode =>
      obtain ⟨-, hf⟩ := encodeOfDecode _ f bytes tail i hdecode
      by_cases hi : formatOf (opOf i) = .H
      · obtain rfl : f = .H := hf.symm.trans hi
        exact .inr (.inr ⟨bytes, rest, i, tail, hinbox, hdecode, h, exec_hostEnd (isHostOp_iff.2 hi) h⟩)
      · exact .inl (exec_mode (s := s.setInbox rest) (.inl hi) h)
    next =>
      cases f with
      | H => exact .inl (Host.Outcome.next.inj h ▸ rfl)
      | B => cases h
      | W => cases h
  next => exact .inr (.inl (Host.Outcome.next.inj h ▸ rfl))
  next => exact .inl (Host.Outcome.next.inj h ▸ rfl)

/-- A step to `READY` from another mode runs a recovering operation that ends `OK`. -/
theorem step_to_ready (h : step s = .next t) (hs : s.mode ≠ .ready) (ht : t.mode = .ready) :
    ∃ bytes rest i tail, s.inbox = .op .H bytes :: rest ∧ decode s.conf .H bytes = .ok (i, tail) ∧
      exec i (s.setInbox rest) = .next t ∧ admitted s.mode i = true ∧ Recovers i ∧ ∃ v, t.outcome = some (.ok v) := by
  rcases step_mode_cases h with hm | hm | ⟨bytes, rest, i, tail, hinbox, hdecode, hexec, hend⟩
  · exact absurd (hm.symm.trans ht) hs
  · cases hm.symm.trans ht
  · exact ⟨bytes, rest, i, tail, hinbox, hdecode, hexec, hend.to_ready hs ht⟩

end

/-- Settles O17: a step out of `UNINIT` leads to `READY`, and of the recovering operations `UNINIT` admits `INIT`
alone. -/
theorem onlyInitLeavesUninit : Obligations.OnlyInitLeavesUninit := by
  intro s t h hs ht
  have hready : t.mode = .ready := by
    rcases step_mode_cases h with hm | hm | ⟨bytes, rest, i, tail, -, -, -, hend⟩
    · exact absurd (hm.trans hs) ht
    · exact absurd hm ht
    · exact hend.from_uninit hs ht
  obtain ⟨bytes, rest, i, tail, hinbox, hdecode, hexec, hadm, hrec, v, hv⟩ := step_to_ready h (by simp [hs]) hready
  rw [hs] at hadm
  rcases hrec with ⟨addr, ch, rfl⟩ | rfl
  · exact ⟨hready, execInit_ok_none hexec hv, bytes, rest, addr, ch, tail, hinbox, hdecode⟩
  · cases hadm

/-- Settles O18: the recovering operations are these two. -/
theorem recoveryFromDirty : Obligations.RecoveryFromDirty := by
  intro s t h hs ht
  obtain ⟨bytes, rest, i, tail, hinbox, hdecode, hexec, -, hrec, v, hv⟩ := step_to_ready h (by simp [hs]) ht
  refine ⟨bytes, rest, tail, hinbox, ?_⟩
  rcases hrec with ⟨addr, ch, rfl⟩ | rfl
  · exact .inr ⟨⟨addr, ch, hdecode⟩, execInit_ok_none hexec hv⟩
  · obtain ⟨p, rfl⟩ : ∃ p, v = .bit p := exec_answers hexec v hv
    exact .inl ⟨hdecode, p, hv⟩

end Sys2Proof.Machine
end

section
/-! PROOFS. A poll that times out is the last thing a procedure does, and its trace shows it
(`40_bridge_controller.md` R101, R102, `60_exceptions.md` R183), as the scanner of `Safety.lean` reads it. -/

namespace Sys2Proof.Machine

open Sys2Proof.Safety

/-! ### Runs and what the scanner makes of them -/

/-- No write of the trace follows a busy status read of a poll. -/
def NoWriteWhileBusy (c : ConfigRecord) : TraceScan → List TransportOp → Prop
  | _, [] => True
  | x, op :: ops => (x.last = .busy → ∀ a b, op ≠ .wr a b) ∧ NoWriteWhileBusy c (x.after c op) ops

theorem NoWriteWhileBusy.append {c : ConfigRecord} {q : List TransportOp} : ∀ {p : List TransportOp} {x : TraceScan},
    NoWriteWhileBusy c x p → NoWriteWhileBusy c (scan c x p) q → NoWriteWhileBusy c x (p ++ q)
  | [], _, _, hq => hq
  | _ :: _, _, ⟨hop, hp⟩, hq => ⟨hop, hp.append hq⟩

theorem NoWriteWhileBusy.next_ne {c : ConfigRecord} {op : TransportOp} {q : List TransportOp} :
    ∀ {p : List TransportOp} {x : TraceScan}, NoWriteWhileBusy c x (p ++ op :: q) → (scan c x p).last = .busy →
      ∀ a b, op ≠ .wr a b
  | [], _, ⟨hop, _⟩, hbusy => hop hbusy
  | _ :: _, _, ⟨_, hp⟩, hbusy => hp.next_ne hbusy

/-- Reads and failed operations are no writes. -/
theorem NoWriteWhileBusy.of_noWrite {c : ConfigRecord} : ∀ {ops : List TransportOp} {x : TraceScan},
    (∀ op ∈ ops, ∀ a b, op ≠ .wr a b) → NoWriteWhileBusy c x ops
  | [], _, _ => trivial
  | _ :: _, _, h => have ⟨hop, hops⟩ := List.forall_mem_cons.1 h
    ⟨fun _ => hop, .of_noWrite hops⟩

theorem reads_noWrite (a : Byte) (vs : List Byte) : ∀ op ∈ vs.map (TransportOp.rd a), ∀ b v, op ≠ .wr b v := by
  simp

theorem endsInTimeout_append {c : ConfigRecord} {a : Byte} {q : List TransportOp} (h : endsInTimeout c a q)
    (p : List TransportOp) : endsInTimeout c a (p ++ q) := by
  obtain ⟨r, vs, rfl, hlen, hbusy⟩ := h
  exact ⟨p ++ r, vs, (List.append_assoc _ _ _).symm, hlen, hbusy⟩

/-- A run that added `ops`, now scanned to `y`, ended as they say: it returned with the scanner in `Q`, or it raised an
error that is `Timeout` where the last operation is a busy status read, and then the poll shows whole in `ops`; and a
`Timeout` is raised there only (`POLL_MAX` not 0). -/
def EndsAsShown {α : Type} (c : ConfigRecord) (a : Byte) (Q : TraceScan → Prop) (y : TraceScan)
    (ops : List TransportOp) : EStateM.Result Err State α → Prop
  | .ok _ _ => Q y
  | .error e _ => (y.last = .busy → e = .timeout ∧ endsInTimeout c a ops) ∧
    (e = .timeout → 0 < c.pollMax → y.last = .busy)

/-- From `s`, where the trace so far is scanned to `x`, a run added `ops` and ended with the result `r`. -/
structure ShownRun {α : Type} (c : ConfigRecord) (Q : TraceScan → Prop) (x : TraceScan) (ops : List TransportOp)
    (s : State) (r : EStateM.Result Err State α) : Prop where
  conf : (finalState r).conf = c
  addr : (finalState r).addr = s.addr
  trace : (finalState r).trace = s.trace ++ ops
  writes : NoWriteWhileBusy c x ops
  ended : EndsAsShown c s.addr Q (scan c x ops) ops r

/-- With the scanner in `P` at its start every run of `p` ends as its trace shows, with the scanner in `Q` if it
returns. -/
def Shows {α : Type} (c : ConfigRecord) (P Q : TraceScan → Prop) (p : Proc α) : Prop :=
  ∀ s x, s.conf = c → P x → ∃ ops, ShownRun c Q x ops s (p s)

section
variable {α β : Type} {c : ConfigRecord} {P Q R : TraceScan → Prop} {p : Proc α}

theorem Shows.mono_left (h : Shows c Q R p) (hPQ : ∀ x, P x → Q x) : Shows c P R p :=
  fun s x hs hx => h s x hs (hPQ x hx)

theorem Shows.mono_right (h : Shows c P Q p) (hQR : ∀ x, Q x → R x) : Shows c P R p := by
  intro s x hs hx
  obtain ⟨ops, hconf, haddr, htrace, hwrites, hended⟩ := h s x hs hx
  refine ⟨ops, hconf, haddr, htrace, hwrites, ?_⟩
  cases hp : p s with
  | ok a t => rw [hp] at hended; exact hQR _ hended
  | error e t => rw [hp] at hended; exact hended

/-- One procedure after the other. -/
theorem Shows.bind {f : α → Proc β} (hp : Shows c P Q p) (hf : ∀ a, Shows c Q R (f a)) : Shows c P R (p >>= f) := by
  intro s x hs hx
  obtain ⟨ops, hconf, haddr, htrace, hwrites, hended⟩ := hp s x hs hx
  cases hrun : p s with
  | error e t =>
    rw [hrun] at hconf haddr htrace hended
    rw [bind_of_error hrun]
    exact ⟨ops, hconf, haddr, htrace, hwrites, hended⟩
  | ok a t =>
    rw [hrun] at hconf haddr htrace hended
    rw [bind_of_ok hrun]
    obtain ⟨ops₂, hconf₂, haddr₂, htrace₂, hwrites₂, hended₂⟩ := hf a t _ hconf hended
    refine ⟨ops ++ ops₂, hconf₂, haddr₂.trans haddr, ?_, hwrites.append hwrites₂, ?_⟩
    · rw [htrace₂, ← List.append_assoc, ← htrace]
      rfl
    · rw [scan_append]
      cases hf₂ : f a t with
      | ok b u => rw [hf₂] at hended₂; exact hended₂
      | error e u =>
        rw [hf₂] at hended₂
        have haddr : t.addr = s.addr := haddr
        exact hended₂.imp_left fun h hbusy => (h hbusy).imp_right fun ht => haddr ▸ endsInTimeout_append ht ops

/-- A procedure that issues nothing, and returns. -/
theorem Shows.silent (h : ∀ s, s.conf = c → ∃ a t, p s = .ok a t ∧ t.conf = c ∧ t.addr = s.addr ∧ t.trace = s.trace) :
    Shows c P P p := by
  intro s x hs hx
  obtain ⟨a, t, hrun, hconf, haddr, htrace⟩ := h s hs
  rw [hrun]
  exact ⟨[], hconf, haddr, by simpa using htrace, trivial, hx⟩

theorem Shows.pure (a : α) : Shows c P P (pure a : Proc α) := .silent fun s hs => ⟨a, s, rfl, hs, rfl, rfl⟩

theorem Shows.get : Shows c P P (get : Proc State) := .silent fun s hs => ⟨s, s, rfl, hs, rfl, rfl⟩

theorem Shows.modify {g : State → State}
    (hg : ∀ s, (g s).conf = s.conf ∧ (g s).addr = s.addr ∧ (g s).trace = s.trace) :
    Shows c P P (modify g : Proc Unit) :=
  .silent fun s hs => have ⟨hconf, haddr, htrace⟩ := hg s
    ⟨⟨⟩, g s, rfl, hconf.trans hs, haddr, htrace⟩

theorem Shows.getConf_bind {f : ConfigRecord → Proc β} (h : Shows c P Q (f c)) : Shows c P Q (getConf >>= f) := by
  intro s x hs hx
  rw [bind_of_ok (getConf_run s), hs]
  exact h s x hs hx

/-- An error other than `Timeout`, raised where the last operation is no busy status read. -/
theorem Shows.throw {e : Err} (he : e ≠ .timeout) (hP : ∀ x, P x → x.last ≠ .busy) :
    Shows c P Q (throw e : Proc α) :=
  fun _ x hs hx => ⟨[], hs, rfl, by simp, trivial, fun h => absurd h (hP x hx), fun h => absurd h he⟩

/-- A transport operation that failed is no status read. -/
theorem shownRun_failed {s t : State} (x : TraceScan) (hs : s.conf = c)
    (h : (∃ n, t = s.setFreeIx n) ∨ (∃ e, t = s.setEnv e)) :
    ShownRun (α := α) c Q x [.failed] s (.error .transport (record .failed t)) where
  conf := (record_frame _ h).conf.trans hs
  addr := (record_frame _ h).addr
  trace := record_trace _ h
  writes := .of_noWrite (by simp)
  ended := ⟨nofun, nofun⟩

theorem tWrite_shows {b : Byte} (hP : ∀ x, P x → x.last ≠ .busy ∧ Q (x.after c (.wr 0 b))) :
    Shows c P Q (tWrite b) := by
  intro s x hs hx
  obtain ⟨hlast, hafter⟩ := hP x hx
  rcases tWrite_cases b s with ⟨-, h⟩ | ⟨-, h⟩ <;> rw [h]
  · have hframe := record_frame (.wr s.addr b) (envWrite_cases b s)
    exact ⟨_, hframe.conf.trans hs, hframe.addr, record_trace _ (envWrite_cases b s),
      ⟨fun hbusy => absurd hbusy hlast, trivial⟩, hafter⟩
  · exact ⟨_, shownRun_failed x hs (envWrite_cases b s)⟩

theorem tRead_shows (hP : ∀ x v, P x → Q (x.after c (.rd 0 v))) : Shows c P Q tRead := by
  intro s x hs hx
  rcases tRead_cases s with ⟨v, -, h⟩ | ⟨-, h⟩ <;> rw [h]
  · have hframe := record_frame (.rd s.addr v) (envRead_cases s)
    exact ⟨_, hframe.conf.trans hs, hframe.addr, record_trace _ (envRead_cases s),
      .of_noWrite (by simp), hP x v hx⟩
  · exact ⟨_, shownRun_failed x hs (envRead_cases s)⟩

end

/-! ### Bridge commands -/

/-- Between two commands: the next write is a command byte, and no poll is under way. -/
structure BetweenCommands (x : TraceScan) : Prop where
  gap : x.gap = .command
  last : x.last ≠ .busy

/-- After a command other than the one that starts a poll: the next read is no status read of a poll. -/
structure AfterCommand (x : TraceScan) : Prop where
  gap : x.gap = .command
  last : x.last ≠ .busy
  polling : x.polling = false

/-- A procedure of whole commands and polls. -/
abbrev ShowsTimeout {α : Type} (c : ConfigRecord) (p : Proc α) : Prop := Shows c BetweenCommands BetweenCommands p

theorem AfterCommand.between (x : TraceScan) (h : AfterCommand x) : BetweenCommands x := ⟨h.gap, h.last⟩

section
variable {c : ConfigRecord}

/-- A command byte without a parameter. -/
theorem cmd0_shows {code : Byte} {r : Bool} {u : FlagUse} (h : CodeScan c code false r u) :
    Shows c BetweenCommands AfterCommand (cmd0 code) :=
  tWrite_shows fun x ⟨hgap, hlast⟩ => ⟨hlast, by
    constructor <;> simp [TraceScan.after, hgap, h.notSrp, h.parameter]⟩

/-- A command byte and its parameter. -/
theorem cmd1_shows {code p : Byte} (hcode : takesParameter c code = true) (hp : code = c.cmdSRP → p ≠ c.ptrStatus) :
    Shows c BetweenCommands AfterCommand (cmd1 code p) := by
  refine Shows.bind (Q := fun y => ∃ x, BetweenCommands x ∧ y = x.after c (.wr 0 code))
    (tWrite_shows fun x hx => ⟨hx.last, x, hx, rfl⟩) fun _ => tWrite_shows ?_
  rintro _ ⟨x, ⟨hgap, -⟩, rfl⟩
  by_cases hsrp : code = c.cmdSRP
  · refine ⟨by simp [TraceScan.after, hgap], ?_⟩
    constructor <;> simp [TraceScan.after, hgap, hsrp, hp hsrp]
  · refine ⟨by simp [TraceScan.after, hgap], ?_⟩
    constructor <;> simp [TraceScan.after, hgap, hsrp, hcode]

theorem command1_shows {code : Byte} {r : Bool} {u : FlagUse} (h : CodeScan c code true r u) (p : Byte) :
    Shows c BetweenCommands AfterCommand (cmd1 code p) :=
  cmd1_shows h.parameter fun hsrp => absurd hsrp h.notSrp

/-- What a command reads back is no status byte of a poll. -/
theorem plainRead_shows : Shows c AfterCommand AfterCommand tRead :=
  tRead_shows fun x v ⟨hgap, _, hpolling⟩ => by
    constructor <;> simp [TraceScan.after, hgap, hpolling]

/-! ### The poll -/

/-- The two writes of a poll. -/
theorem scan_pollWrites {x : TraceScan} (hgap : x.gap = .command) (a : Byte) (ops : List TransportOp) :
    scan c x (.wr a c.cmdSRP :: .wr a c.ptrStatus :: ops) = scan c (pollScan x.flags .none) ops := by
  simp [TraceScan.after, hgap, pollScan, flagsAfterCommand]

/-- Busy status reads of a poll. -/
theorem scan_busyReads (u : FlagUse) (a : Byte) {vs : List Byte} (h : ∀ v ∈ vs, busyFlag c v = true) :
    ∀ l, scan c (pollScan u l) (vs.map (.rd a)) = pollScan u (if vs = [] then l else .busy) := by
  induction vs with
  | nil => exact fun _ => rfl
  | cons v vs ih =>
    obtain ⟨hv, hvs⟩ := List.forall_mem_cons.1 h
    intro l
    have hafter : (pollScan u l).after c (.rd a v) = pollScan u .busy := by
      simp [TraceScan.after, pollScan, pollRead, hv]
    simp [hafter, ih hvs]

/-- The status read that ends a poll. -/
theorem idleRead_between (u : FlagUse) (l : PollRead) (a : Byte) {v : Byte} (hv : busyFlag c v = false) :
    BetweenCommands ((pollScan u l).after c (.rd a v)) := by
  refine ⟨rfl, ?_⟩
  cases u <;> simp [TraceScan.after, pollScan, pollRead, hv]
  split <;> simp

/-- After the two writes of a poll come its reads. -/
theorem poll_noWriteWhileBusy {x : TraceScan} (hx : BetweenCommands x) (a : Byte) {ops : List TransportOp}
    (hops : ∀ op ∈ ops, ∀ a b, op ≠ .wr a b) :
    NoWriteWhileBusy c x (.wr a c.cmdSRP :: .wr a c.ptrStatus :: ops) := by
  obtain ⟨hgap, hlast⟩ := hx
  exact ⟨fun h => absurd h hlast, by simp [TraceScan.after, hgap], .of_noWrite hops⟩

/-- A poll that times out shows its two writes and `POLL_MAX` busy reads; one that ends otherwise does not end with a
busy read (`40_bridge_controller.md` R101, R102). -/
theorem pollUntilIdle_shows : ShowsTimeout c pollUntilIdle := by
  rintro s x rfl hx
  obtain ⟨hok, herr⟩ := pollReadsAreBounded s
  have hframe := pollUntilIdle_keeps s
  cases hrun : pollUntilIdle s with
  | ok v t =>
    obtain ⟨hidle, -, busy, hbusy, -, -, htrace⟩ := hok v t hrun
    rw [hrun] at hframe
    refine ⟨_, hframe.conf, hframe.addr, htrace, poll_noWriteWhileBusy hx _ (reads_noWrite _ _), ?_⟩
    rw [scan_pollWrites hx.gap, List.map_append, scan_append, scan_busyReads _ _ hbusy]
    exact idleRead_between _ _ s.addr hidle
  | error e t =>
    rw [hrun] at hframe
    rcases herr e t hrun with ⟨rfl, busy, hbusy, hlen, -, -, htrace⟩ |
      ⟨rfl, htrace | htrace | ⟨busy, hbusy, -, -, htrace⟩⟩
    · refine ⟨_, hframe.conf, hframe.addr, htrace, poll_noWriteWhileBusy hx _ (reads_noWrite _ _), ?_⟩
      refine ⟨fun _ => ⟨rfl, [], busy, rfl, hlen, hbusy⟩, fun _ hmax => ?_⟩
      have hne : busy ≠ [] := List.ne_nil_of_length_pos (hlen ▸ hmax)
      rw [scan_pollWrites hx.gap, scan_busyReads _ _ hbusy, if_neg hne]
      rfl
    · exact ⟨_, hframe.conf, hframe.addr, htrace, .of_noWrite (by simp), nofun, nofun⟩
    · exact ⟨_, hframe.conf, hframe.addr, htrace, ⟨fun h => absurd h hx.last, .of_noWrite (by simp)⟩, nofun, nofun⟩
    · refine ⟨_, hframe.conf, hframe.addr, htrace, poll_noWriteWhileBusy hx _ ?_, ?_⟩
      · exact List.forall_mem_append.2 ⟨reads_noWrite _ _, by simp⟩
      refine ⟨fun h => ?_, nofun⟩
      rw [scan_pollWrites hx.gap, scan_append] at h
      cases h

/-! ### The procedures of the OneWireBus -/

/-- A bridge command between two polls, and what follows. -/
theorem betweenPolls_shows {β : Type} {cmd : Proc Unit} (hcmd : Shows c BetweenCommands AfterCommand cmd)
    {k : Byte → Proc β} (hk : ∀ v, ShowsTimeout c (k v)) :
    ShowsTimeout c (pollUntilIdle >>= fun _ => cmd >>= fun _ => pollUntilIdle >>= k) :=
  pollUntilIdle_shows.bind fun _ => hcmd.bind fun _ =>
    (pollUntilIdle_shows.bind hk).mono_left AfterCommand.between

theorem busReset_shows (hc : CommandRows c) : ShowsTimeout c busReset :=
  .getConf_bind (betweenPolls_shows (cmd0_shows hc.w1rs) fun _ => .pure _)

theorem writeByte_shows (hc : CommandRows c) (b : Byte) : ShowsTimeout c (writeByte b) :=
  .getConf_bind (betweenPolls_shows (command1_shows hc.w1wb b) fun _ => .pure _)

theorem searchTriplet_shows (hc : CommandRows c) (dir : Bool) : ShowsTimeout c (searchTriplet dir) :=
  .getConf_bind (betweenPolls_shows (command1_shows hc.w1t _) fun _ => .pure _)

/-- The byte is fetched with the read pointer at the read-data register (`41_onewire_bus.md` R134). -/
theorem readByte_shows (hc : CommandRows c) (hp : c.ptrData ≠ c.ptrStatus) : ShowsTimeout c readByte :=
  .getConf_bind (betweenPolls_shows (cmd0_shows hc.w1rb) fun _ =>
    (cmd1_shows (by simp [takesParameter]) fun _ => hp).bind fun _ => plainRead_shows.mono_right AfterCommand.between)

theorem writeBytes_shows (hc : CommandRows c) (bs : List Byte) : ShowsTimeout c (writeBytes bs) := by
  induction bs with
  | nil => exact .pure _
  | cons b bs ih => exact (writeByte_shows hc b).bind fun _ => ih

theorem matchRomBytes_shows (hc : CommandRows c) (id : Identifier) : ShowsTimeout c (matchRomBytes id) :=
  .getConf_bind ((writeByte_shows hc _).bind fun _ => writeBytes_shows hc _)

theorem matchRom_shows (hc : CommandRows c) (id : Identifier) : ShowsTimeout c (matchRom id) := by
  refine (busReset_shows hc).bind fun p => ?_
  split
  · exact (matchRomBytes_shows hc id).bind fun _ => .pure _
  · exact .pure _

/-! ### The search -/

theorem searchStep_shows (hc : CommandRows c) (p : Nat) (newLd : Int) : ShowsTimeout c (searchStep p newLd) := by
  refine (Shows.modify (by simp)).bind fun _ => Shows.get.bind fun s =>
    (searchTriplet_shows hc _).bind fun ⟨idb, cmp⟩ => ?_
  dsimp only
  split
  · rw [throw_bind]
    exact .throw (by decide) fun _ hx => hx.last
  · exact (Shows.modify (by simp)).bind fun _ => .pure _

theorem searchSteps_shows (hc : CommandRows c) (ps : List Nat) : ∀ newLd, ShowsTimeout c (searchSteps ps newLd) := by
  induction ps with
  | nil => exact fun _ => .pure _
  | cons p ps ih => exact fun _ => (searchStep_shows hc p _).bind ih

theorem searchPass_shows (hc : CommandRows c) : ShowsTimeout c searchPass := by
  refine .getConf_bind ((busReset_shows hc).bind fun p => ?_)
  split
  · refine (writeByte_shows hc _).bind fun _ => (searchSteps_shows hc _ _).bind fun n =>
      (Shows.modify fun s => ?_).bind fun _ => .pure _
    obtain ⟨l, hl⟩ := searchBookkeeping_writes n s
    rw [hl]
    exact ⟨rfl, rfl, rfl⟩
  · exact .pure _

theorem searchLoop_shows (hc : CommandRows c) (n : Nat) : ShowsTimeout c (searchLoop n) := by
  induction n with
  | zero => exact .pure _
  | succ n ih =>
    refine (searchPass_shows hc).bind fun e => ?_
    cases e with
    | again => exact ih
    | noPresence => exact .pure _
    | last => exact .pure _

theorem searchProc_shows (hc : CommandRows c) : ShowsTimeout c searchProc :=
  .getConf_bind ((Shows.modify (by simp [searchFresh])).bind fun _ => (searchLoop_shows hc _).bind fun _ =>
    Shows.get.bind fun _ => .pure _)

/-! ### `INIT` and `SELCH` -/

theorem selchSequence_shows (hc : CommandRows c) (ch : BitVec 3) : ShowsTimeout c (selchSequence ch) := by
  refine .getConf_bind ((command1_shows hc.chsl _).bind fun _ => plainRead_shows.bind fun e => ?_)
  split
  · exact .throw (by decide) fun _ hx => hx.last
  · exact (Shows.pure _).mono_right AfterCommand.between

/-- The poll and the channel-select sequence. -/
theorem select_shows (hc : CommandRows c) (ch : BitVec 3) :
    ShowsTimeout c (pollUntilIdle >>= fun _ => selchSequence ch) :=
  pollUntilIdle_shows.bind fun _ => selchSequence_shows hc ch

theorem initSelect_shows (hc : CommandRows c) (ch : BitVec 3) (f : Byte) : ShowsTimeout c (initSelect c ch f) := by
  refine (Shows.modify (by simp)).bind fun _ => ?_
  split
  · exact select_shows hc ch
  · exact .pure _

theorem initConfigure_shows (hc : CommandRows c) (ch : BitVec 3) : ShowsTimeout c (initConfigure c ch) := by
  refine (command1_shows hc.wcfg _).bind fun _ => plainRead_shows.bind fun f => ?_
  split
  · exact .throw (by decide) fun _ hx => hx.last
  · exact (initSelect_shows hc ch f).mono_left AfterCommand.between

theorem initBody_shows (hc : CommandRows c) (ch : BitVec 3) : ShowsTimeout c (initBody ch) := by
  rw [initBody_eq]
  refine .getConf_bind ((cmd0_shows hc.drst).bind fun _ => plainRead_shows.bind fun v => ?_)
  split
  · exact .throw (by decide) fun _ hx => hx.last
  · exact (initConfigure_shows hc ch).mono_left AfterCommand.between

end

end Sys2Proof.Machine
end

section
/-! PROOFS. `MODE` after a host operation by its outcome, and where it times out (`60_exceptions.md` R181 to R184, R191,
R194). -/

namespace Sys2Proof.Machine

open Sys2Proof.Safety

section
variable {i : Instr} {s t : State}

/-! ### `MODE` by the outcome -/

/-- The errors of the host operations, as the host is told them, and `MODE` after each. -/
def ErrorMoves (i : Instr) (m : Mode) (e : Err) (m' : Mode) : Prop :=
  ((∃ addr ch, i = .init addr ch) ∧ e = .initialization ∧ m' = .uninit) ∨
  ((∃ ch, i = .selch ch) ∧ m = .ready ∧ ((e = .timeout ∧ m' = .dirty) ∨
    (e = .initialization ∧ m' = .uninit) ∨ (e = .transport ∧ (m' = .dirty ∨ m' = .uninit)))) ∨
  (IsPrimitive i ∧ PrimitiveErr e ∧ m' = .dirty) ∨
  (i = .search ∧ e = .noDevice ∧ m = .ready ∧ m' = .ready)

theorem RaisedAt.errorMoves {site : ErrorSite} {e : Err} (h : RaisedAt i site e) {m : Mode}
    (ha : admitted m i = true) : ErrorMoves i m (reportedError site e) (modeAfterError site e m) := by
  cases h with
  | init addr ch => exact .inl ⟨⟨addr, ch, rfl⟩, rfl, rfl⟩
  | selchPoll ch he =>
    refine .inr (.inl ⟨⟨ch, rfl⟩, of_decide_eq_true ha, ?_⟩)
    rcases he with rfl | rfl
    · exact .inr (.inr ⟨rfl, .inl rfl⟩)
    · exact .inl ⟨rfl, rfl⟩
  | selchSequence ch he =>
    refine .inr (.inl ⟨⟨ch, rfl⟩, of_decide_eq_true ha, ?_⟩)
    rcases he with rfl | rfl
    · exact .inr (.inr ⟨rfl, .inr rfl⟩)
    · exact .inr (.inl ⟨rfl, rfl⟩)
  | primitive hi he =>
    refine .inr (.inr (.inl ⟨hi, he, ?_⟩))
    rcases he with rfl | rfl <;> rfl
  | noDevice =>
    have hready : m = .ready := of_decide_eq_true ha
    exact .inr (.inr (.inr ⟨rfl, rfl, hready, hready⟩))

theorem HostEnd.mode_of_refused (h : HostEnd i s t) {r : RefusedReason} (hr : t.outcome = some (.refused r)) :
    t.mode = s.mode := by
  rw [h.refused hr]
  rfl

theorem HostEnd.mode_of_ok (h : HostEnd i s t) {v : Value} (hv : t.outcome = some (.ok v)) :
    t.mode = modeAfterOk i s.mode := by
  rcases h.mode_cases with ⟨⟨r, hr⟩, -⟩ | ⟨-, -, hm⟩ | ⟨-, site, e, -, he, -⟩
  · cases hr.symm.trans hv
  · exact hm
  · cases he.symm.trans hv

theorem HostEnd.mode_of_err (h : HostEnd i s t) {e : Err} (he : t.outcome = some (.err e)) :
    ErrorMoves i s.mode e t.mode := by
  rcases h.mode_cases with ⟨⟨r, hr⟩, -⟩ | ⟨-, ⟨v, hv⟩, -⟩ | ⟨ha, site, e', hraised, he', hm⟩
  · cases hr.symm.trans he
  · cases hv.symm.trans he
  · cases he'.symm.trans he
    rw [hm]
    exact hraised.errorMoves ha

/-! ### Timeouts -/

/-- A `Timeout` is raised in `INIT`, which renames it, or it is reported and leads to `DIRTY` (`60_exceptions.md` R182,
R183). -/
theorem RaisedAt.timeout {site : ErrorSite} (h : RaisedAt i site .timeout) (m : Mode) :
    ((∃ addr ch, i = .init addr ch) ∧ reportedError site .timeout = .initialization ∧
      modeAfterError site .timeout m = .uninit) ∨
    ((∀ addr ch, i ≠ .init addr ch) ∧ reportedError site .timeout = .timeout ∧
      modeAfterError site .timeout m = .dirty) := by
  cases h with
  | init addr ch => exact .inl ⟨⟨addr, ch, rfl⟩, rfl, rfl⟩
  | selchPoll ch => exact .inr ⟨nofun, rfl, rfl⟩
  | selchSequence ch he => simp at he
  | primitive hi =>
    refine .inr ⟨fun addr ch h => ?_, rfl, rfl⟩
    subst h
    simp [IsPrimitive] at hi

/-- Only outside `INIT` is a `Timeout` reported, and then it was raised. -/
theorem eq_timeout_of_reportedError {site : ErrorSite} {e : Err} (h : reportedError site e = .timeout) :
    e = .timeout := by
  cases site with
  | init => cases h
  | selchPoll => exact h
  | selchSequence => exact h
  | primitive => exact h

/-- What the operations `ops` that a host operation added say of its end. -/
structure TimeoutShown (i : Instr) (s t : State) (ops : List TransportOp) : Prop where
  writes : NoWriteWhileBusy s.conf .start ops
  raised : lastRead s.conf ops = .busy → endsInTimeout s.conf t.addr ops ∧ ∃ site, RaisedAt i site .timeout ∧
    t.outcome = some (.err (reportedError site .timeout)) ∧ t.mode = modeAfterError site .timeout s.mode
  busy : t.outcome = some (.err .timeout) → 0 < s.conf.pollMax → lastRead s.conf ops = .busy

/-- A refusal adds no operation. -/
theorem TimeoutShown.refuse {r : RefusedReason} {ops : List TransportOp}
    (htrace : (refuse r s).trace = s.trace ++ ops) : TimeoutShown i s (refuse r s) ops := by
  obtain rfl : ops = [] := List.append_cancel_left (htrace.symm.trans (List.append_nil _).symm)
  exact ⟨trivial, nofun, nofun⟩

/-- The body of every host operation shows its timeouts. -/
theorem HostBody.shows {α : Type} {p : Proc α} (h : HostBody i p) {c : ConfigRecord} (hc : CommandRows c)
    (hp : c.ptrData ≠ c.ptrStatus) : ShowsTimeout c p := by
  cases h with
  | init addr ch => exact initBody_shows hc _
  | selchSingle ch => exact .pure _
  | selchMulti ch => exact select_shows hc _
  | owreset => exact busReset_shows hc
  | owwrite b => exact writeByte_shows hc b
  | owread => exact readByte_shows hc hp
  | matchrom id => exact matchRom_shows hc id
  | search => exact searchProc_shows hc
  | crc8 data => exact .pure _

/-- The run of the body, from where the host operation starts it. -/
theorem HostBody.shownRun {α : Type} {p : Proc α} (h : HostBody i p) (hc : CommandRows s.conf)
    (hp : s.conf.ptrData ≠ s.conf.ptrStatus) {ops : List TransportOp}
    (htrace : (finalState (p (bodyStart i s))).trace = s.trace ++ ops) :
    ShownRun s.conf BetweenCommands .start ops (bodyStart i s) (p (bodyStart i s)) := by
  obtain ⟨ops', hrun⟩ := h.shows hc hp (bodyStart i s) .start (bodyStart_conf i s) ⟨rfl, nofun⟩
  have heq := hrun.trace.symm.trans htrace
  rw [bodyStart_trace] at heq
  exact List.append_cancel_left heq ▸ hrun

theorem HostEnd.timeoutShown (h : HostEnd i s t) (hc : CommandRows s.conf) (hp : s.conf.ptrData ≠ s.conf.ptrStatus)
    {ops : List TransportOp} (htrace : t.trace = s.trace ++ ops) : TimeoutShown i s t ops := by
  cases h with
  | badOperand hop => exact .refuse htrace
  | notReady hop hm => exact .refuse htrace
  | @ok hop hm α p hbody a u hrun ch v =>
    obtain ⟨-, -, -, hwrites, hended⟩ := hbody.shownRun hc hp (by rw [hrun]; exact htrace)
    rw [hrun] at hended
    exact ⟨hwrites, fun hbusy => absurd hbusy hended.last, nofun⟩
  | @err hop hm α p hbody e u hrun site hraised hmode =>
    rw [takeError_trace] at htrace
    obtain ⟨-, haddr, -, hwrites, hended⟩ := hbody.shownRun hc hp (by rw [hrun]; exact htrace)
    rw [hrun] at haddr hended
    obtain ⟨hlast, htimeout⟩ := hended
    refine ⟨hwrites, fun hbusy => ?_, fun hout => ?_⟩
    · obtain ⟨rfl, hend⟩ := hlast hbusy
      refine ⟨?_, site, hraised, rfl, ?_⟩
      · rw [takeError_addr]
        exact haddr ▸ hend
      · cases site <;> rfl
    · exact htimeout (eq_timeout_of_reportedError (HostOutcome.err.inj (Option.some.inj hout)))

end

/-- Settles O45: `MODE` and outcome by the ends of a host operation, the timeout by what its body shows. -/
theorem modeMovesByOutcome : Obligations.ModeMovesByOutcome := by
  intro i s t hi h
  have hend := exec_hostEnd hi h
  refine ⟨fun r hr => hend.mode_of_refused hr, fun v hv => ⟨fun hrec => ?_, fun hinit hreset => ?_⟩,
    fun e he => hend.mode_of_err he, fun hc hp ops htrace => ?_⟩
  · exact (hend.mode_of_ok hv).trans (modeAfterOk_of_recovers hrec _)
  · refine (hend.mode_of_ok hv).trans (modeAfterOk_of_not_recovers ?_ _)
    rintro (⟨addr, ch, rfl⟩ | rfl)
    · exact hinit addr ch rfl
    · exact hreset rfl
  · obtain ⟨hwrites, hraised, hbusy⟩ := hend.timeoutShown (commandRows hc) (ptrData_ne_ptrStatus hp) htrace
    refine ⟨fun hlast => ?_, hbusy, fun p op q hops hlast => NoWriteWhileBusy.next_ne (hops ▸ hwrites) hlast⟩
    obtain ⟨hends, site, hat, hout, hm⟩ := hraised hlast
    rw [hout, hm]
    rcases hat.timeout s.mode with ⟨hinit, hreported, hmode⟩ | ⟨hinit, hreported, hmode⟩ <;> rw [hreported, hmode]
    · exact ⟨hends, fun _ => ⟨rfl, rfl⟩, fun hne => have ⟨addr, ch, h⟩ := hinit; absurd h (hne addr ch)⟩
    · exact ⟨hends, fun ⟨addr, ch, h⟩ => absurd h (hinit addr ch), fun _ => ⟨rfl, rfl⟩⟩

end Sys2Proof.Machine
end

section
/-! PROOFS. The reset of the block (`70_reset_and_hazards.md` R210): what it clears and what it leaves. -/

namespace Sys2Proof.Machine

@[simp] theorem blockReset_mode (s : State) : (blockReset s).mode = .uninit := rfl
@[simp] theorem blockReset_env (s : State) : (blockReset s).env = s.env := rfl
@[simp] theorem blockReset_conf (s : State) : (blockReset s).conf = s.conf := rfl
@[simp] theorem blockReset_inbox (s : State) : (blockReset s).inbox = s.inbox := rfl

theorem step_blockReset {s : State} {rest : List Input} (h : s.inbox = .blockReset :: rest) :
    step s = .next (blockReset (s.setInbox rest)) := by
  rw [step, h]

/-- Settles O8: the step resets the state that is left when the input is taken. -/
theorem blockResetLeavesUninit : Obligations.BlockResetLeavesUninit := by
  intro s rest hinbox
  refine ⟨blockReset (s.setInbox rest), step_blockReset hinbox, blockReset_mode _, ?_, ?_, ?_⟩
  · rw [blockReset_env, State.setInbox_env]
  · rw [blockReset_conf, State.setInbox_conf]
  · rw [blockReset_inbox, State.setInbox_inbox]

end Sys2Proof.Machine
end
